-- ==== Sys2Proof/Word.lean ====
section
/-! DEFINITION. The word types and the channel numbers of the three-channel tone engine. -/

namespace Sys2Proof

/-- A command word or a response word: 16 bits, bit 0 least significant (30_encoding.md R90, 10_state.md R48,
00_scope.md R10). -/
abbrev Word := BitVec 16

/-- One byte of a platform's byte-wide link (20_memory.md R74). -/
abbrev Byte := BitVec 8

/-- The three channels 0, 1 and 2 (00_scope.md R6, 10_state.md section 3: "Channel numbers 0..2 are fixed"). -/
inductive ChanId where
  | c0
  | c1
  | c2
deriving DecidableEq, Repr

/-- The channel's number, which is also its bit position in every 3-bit channel mask (10_state.md R34, R45). -/
def ChanId.idx : ChanId → Nat
  | .c0 => 0
  | .c1 => 1
  | .c2 => 2

end Sys2Proof
end

