-- ==== Sys2Proof/Config.lean ====
section
/-! DEFINITION. What an implementation fixes (the OPEN parameters of 00_scope.md R7) and the free values: the
contents of the two tables, the two clock rates, and the order in which the agents take their steps. A free value is an
`opaque` constant without a body, so no proof can know it. -/

namespace Sys2Proof

/-- The OPEN parameters (00_scope.md R7). `NOTE_COUNT` is the length of `notePeriod`. `Config.wf` of WellFormed.lean
says when a configuration is well formed (R8). -/
structure Config where
  /-- `NOTE_PERIOD`: entry i is the period of note i in timer ticks (20_memory.md R70). -/
  notePeriod : List (BitVec 16)
  /-- `DUTY_TABLE`: entry j is the duty value of MIX = j (20_memory.md R71). -/
  dutyTable : List (BitVec 8)
  /-- `F_TIMER`, in Hz. No step reads it (R7; 41_oscillators.md R152). -/
  fTimer : ℚ
  /-- `F_PWM`, in Hz. No step reads it (R7; 41_oscillators.md R152). -/
  fPwm : ℚ
deriving DecidableEq, Repr

/-- `NOTE_COUNT` (00_scope.md R7). -/
def Config.noteCount (c : Config) : Nat := c.notePeriod.length

/-- `NOTE_NONE`, the note field's "no note" sentinel (00_scope.md R7). -/
def noteNone : BitVec 8 := 0xFF#8

/-- `PWM_TOP`, the top value of the PWM carrier counter (00_scope.md R7). -/
def pwmTop : BitVec 8 := 255#8

/-- `VOL_RESET`, the volume after reset (00_scope.md R7). -/
def volReset : BitVec 2 := 0#2

/-- FREE VALUE: the hardware's `NOTE_COUNT` less one, so that the count is in 1..255 (00_scope.md R7; log 1). -/
opaque Config.noteCountPred : Fin 255

/-- FREE VALUE: the hardware's `NOTE_PERIOD[i]` less one, so that each period is in 1..65535 (00_scope.md R7; log 1). -/
opaque Config.notePeriodPred : Nat → Fin 65535

/-- FREE VALUE: the hardware's `DUTY_TABLE[j]` (00_scope.md R7; log 1). -/
opaque Config.freeDuty : Nat → BitVec 8

/-- FREE VALUE: the hardware's `F_TIMER`, as numerator less one and denominator less one (00_scope.md R7; log 11). -/
opaque Config.freeTimerRate : Nat × Nat

/-- FREE VALUE: the hardware's `F_PWM`, as numerator less one and denominator less one (00_scope.md R7; log 11). -/
opaque Config.freePwmRate : Nat × Nat

/-- A positive rational from a pair of naturals. -/
def positiveRate (r : Nat × Nat) : ℚ := (r.1 + 1 : ℚ) / (r.2 + 1 : ℚ)

/-- The hardware's own configuration: well formed (00_scope.md R8), its contents free (log 1). -/
def Config.hw : Config where
  notePeriod := (List.range (Config.noteCountPred.val + 1)).map fun i =>
    BitVec.ofNat 16 ((Config.notePeriodPred i).val + 1)
  dutyTable := (List.range 32).map Config.freeDuty
  fTimer := positiveRate Config.freeTimerRate
  fPwm := positiveRate Config.freePwmRate

/-- The number of one bits of a 3-bit level mask (00_scope.md R10 `popcount`, R9). -/
def popcount3 (m : BitVec 3) : Nat := (m.getLsbD 0).toNat + (m.getLsbD 1).toNat + (m.getLsbD 2).toNat

/-- The example configuration `EX` (00_scope.md R13): "illustrative only ... no rule depends on it". Its rates are
not given there, and 1 stands for both. -/
def Config.ex : Config where
  notePeriod := [3, 2, 5, 1]
  dutyTable := (List.range 32).map fun j =>
    BitVec.ofNat 8 (20 * popcount3 (BitVec.ofNat 3 j) * (j / 8 + 1))
  fTimer := 1
  fPwm := 1

/-- A channel's tone frequency in Hz, `F_TIMER / (2 * PERIOD)` (70_reset_and_hazards.md R220). -/
def Config.toneFrequency (c : Config) (period : BitVec 16) : ℚ := c.fTimer / (2 * period.toNat)

/-- A channel's compare-match (interrupt) rate in Hz, `F_TIMER / PERIOD` (70_reset_and_hazards.md R220). -/
def Config.matchRate (c : Config) (period : BitVec 16) : ℚ := c.fTimer / period.toNat

/-- The PWM carrier frequency in Hz, `F_PWM / 256` (70_reset_and_hazards.md R221). -/
def Config.carrierFrequency (c : Config) : ℚ := c.fPwm / 256

/-- One turn: which agent takes the next step, and what it does where it has a choice (60_exceptions.md R195).
The host has two things to do, taking the next command word (R195.1) and taking a response word (R196, log 5). -/
inductive Turn where
  /-- The host performs the next command word, or is idle when none is left; a host that waits reads instead (log 18). -/
  | host
  /-- The host takes the oldest response word, or begins to wait when there is none (log 5, log 18). -/
  | hostTake
  /-- The timer clock performs `TMR_TICK`. -/
  | timerClock
  /-- The PWM clock performs `PWM_TICK`. -/
  | pwmClock
  /-- The service of channel n performs `CH_SERVICE(n)` when `PEND[n] = 1`. -/
  | service (n : ChanId)
  /-- The reset input performs reset. -/
  | reset
deriving DecidableEq, Repr

/-- FREE VALUE: stretches of turns about which the spec says nothing (60_exceptions.md R177 "any order the rules
enable"; log 2, log 15). -/
opaque Config.freeTurns : Nat → List Turn

end Sys2Proof
end

