-- ==== Sys2Proof/Syntax.lean ====
section
/-! DEFINITION. The five host commands, one constructor per row of spec/opcode_table.json. Every operand is the
unsigned field of its width (30_encoding.md R92), so a term of this type is a command whose operands fit. -/

namespace Sys2Proof

/-- The host commands (30_encoding.md R94; 40_commands.md R110 to R118). -/
inductive Instr where
  /-- `ENABLE_OUTPUT e`, format P (R110). -/
  | enableOutput (e : BitVec 1)
  /-- `PLAY_NOTE ch, note`, format N (R111, R112). -/
  | playNote (ch : BitVec 2) (note : BitVec 8)
  /-- `SET_VOLUME v`, format V (R114). -/
  | setVolume (v : BitVec 2)
  /-- `GET_VOLUME`, format Q (R116). -/
  | getVolume
  /-- `GET_STATUS`, format Q (R118). -/
  | getStatus
deriving DecidableEq, Repr

end Sys2Proof
end

