-- ==== Sys2Proof/WellFormed.lean ====
section
/-! DEFINITION. The checks made before anything runs: the configuration's (00_scope.md R7, R8; 70_reset_and_hazards.md
R201.1) and the assembler's on an operand's size (30_encoding.md R99). An `Instr` needs no check of its own: each operand
is a bit vector of its field's width, and field values that are errors are errors of execution (R96). What the host must
keep to (60_exceptions.md R196) is `Instr.honoursContract`. -/

namespace Sys2Proof

/-- R8: every `NOTE_PERIOD[i]` is in 1..65535, and `DUTY_TABLE` has exactly 32 entries (each has 8 bits by its type). -/
def Config.tablesWf (c : Config) : Bool :=
  c.notePeriod.all (fun p => decide (p ≠ 0)) && decide (c.dutyTable.length = 32)

/-- R7: `1 <= NOTE_COUNT <= 255`. -/
def Config.noteCountInRange (c : Config) : Bool :=
  decide (1 ≤ c.noteCount) && decide (c.noteCount ≤ 255)

/-- The clock rates are positive (92_eei_decisions.md, open parameters). -/
def Config.ratesPositive (c : Config) : Bool :=
  decide (0 < c.fTimer) && decide (0 < c.fPwm)

/-- A well-formed configuration: R8, with the ranges of R7. -/
def Config.wf (c : Config) : Bool :=
  c.tablesWf && c.noteCountInRange && c.ratesPositive

/-- The duty entry that index j reads in a table; outside the table, which a well-formed configuration has no index for,
0 (log 9). -/
def Config.dutyEntry (c : Config) (j : Nat) : BitVec 8 := c.dutyTable.getD j 0

/-- The property `DUTY_ADDITIVE` (00_scope.md R9): at one volume, an entry depends only on how many level bits are set,
and does not decrease as that number grows. A premise for claims; no step checks it. -/
def Config.DutyAdditive (c : Config) : Prop :=
  ∀ (vol : BitVec 2) (l l' : BitVec 3), popcount3 l ≤ popcount3 l' →
    c.dutyEntry (vol ++ l).toNat ≤ c.dutyEntry (vol ++ l').toNat

/-- What the host must keep to in a command: channels 0..2, and a note index below `NOTE_COUNT` or `NOTE_NONE`
(60_exceptions.md R196; 70_reset_and_hazards.md R201.4). A command that does not is performed all the same and sets an
error bit (30_encoding.md R96). -/
def Instr.honoursContract (c : Config) : Instr → Bool
  | .enableOutput _ => true
  | .playNote ch note => decide (ch ≠ 3) && (decide (note = noteNone) || decide (note.toNat < c.noteCount))
  | .setVolume _ => true
  | .getVolume => true
  | .getStatus => true

/-- One line of assembler source after its text is read: the mnemonics, `.word`, and the pseudo-commands, with operands
as plain numbers (30_encoding.md R99, R100). -/
inductive AsmLine where
  | enableOutput (e : Nat)
  | playNote (ch note : Nat)
  | setVolume (v : Nat)
  | getVolume
  | getStatus
  | word (w : Nat)
  | silence (ch : Nat)
  | outputOn
  | outputOff
  | silenceAll
deriving DecidableEq, Repr

/-- R99: "An assembler refuses an operand that does not fit its field", and accepts channel 3 and any note up to 0xFF. -/
def AsmLine.wf : AsmLine → Bool
  | .enableOutput e => decide (e ≤ 1)
  | .playNote ch note => decide (ch ≤ 3) && decide (note ≤ 0xFF)
  | .setVolume v => decide (v ≤ 3)
  | .getVolume => true
  | .getStatus => true
  | .word w => decide (w ≤ 0xFFFF)
  | .silence ch => decide (ch ≤ 3)
  | .outputOn => true
  | .outputOff => true
  | .silenceAll => true

end Sys2Proof
end

