-- ==== Sys2Proof/Decode.lean ====
section
/-! DEFINITION. The decoder of command words, total on every word (30_encoding.md R94), the encoder (R91), the opcode
table as match and mask (R94), the assembler (R99, R100) and the byte link (20_memory.md R74, R75). -/

namespace Sys2Proof

/-- Why a word is `ILLEGAL` (30_encoding.md R97). Both reasons have the one effect of 40_commands.md R120. -/
inductive IllegalWord where
  /-- Opcode 0b0000 or 0b0110..0b1111. -/
  | unassignedOpcode
  /-- An assigned opcode with a nonzero reserved bit. -/
  | reservedBits
deriving DecidableEq, Repr

/-- What a word decodes to: one of the six outcomes of 30_encoding.md R94. -/
inductive Decoded where
  | command (i : Instr)
  | illegal (why : IllegalWord)
deriving DecidableEq, Repr

/-- The opcode field `OP = w[15:12]` (30_encoding.md R91). -/
def opField (w : Word) : BitVec 4 := w.extractLsb' 12 4

/-- The command, if the reserved bits are zero, else `ILLEGAL` (30_encoding.md R91, R97). -/
def unlessReserved (reservedZero : Bool) (i : Instr) : Decoded :=
  if reservedZero then .command i else .illegal .reservedBits

/-- R94's `decode`: every word is a command or is illegal. -/
def decode (w : Word) : Decoded :=
  if opField w = 0b0001#4 then
    unlessReserved (w.extractLsb' 1 11 = 0#11) (.enableOutput (w.extractLsb' 0 1))
  else if opField w = 0b0010#4 then
    unlessReserved (w.extractLsb' 10 2 = 0#2) (.playNote (w.extractLsb' 8 2) (w.extractLsb' 0 8))
  else if opField w = 0b0011#4 then
    unlessReserved (w.extractLsb' 2 10 = 0#10) (.setVolume (w.extractLsb' 0 2))
  else if opField w = 0b0100#4 then
    unlessReserved (w.extractLsb' 0 12 = 0#12) .getVolume
  else if opField w = 0b0101#4 then
    unlessReserved (w.extractLsb' 0 12 = 0#12) .getStatus
  else
    .illegal .unassignedOpcode

/-- The decoder asked on a row's bits: none for a word of more than 16 bits, because every command is one 16-bit word
(30_encoding.md R90). DESIGN CHOICE: fewer than 16 bits stand for the whole word whose other bits are 0; they are no partial
delivery, which 20_memory.md R75 calls no command (log 17). -/
def decodeTableWord (nbits w : Nat) : Option Instr :=
  if nbits ≤ 16 then
    match decode (BitVec.ofNat 16 (w % 2 ^ nbits)) with
    | .command i => some i
    | .illegal _ => none
  else none

/-- A field's value at its place in a word, `lo` being its lowest bit; fields that do not overlap are joined by `|||`
(00_scope.md R10, R14; 30_encoding.md R99). -/
def placeAt {w : Nat} (lo : Nat) (v : BitVec w) : Word := v.setWidth 16 <<< lo

/-- The word of a command: the fields of its format at their places, the reserved bits zero (30_encoding.md R91, formats
P, N, V and Q). -/
def encode : Instr → Word
  | .enableOutput e => placeAt 12 0b0001#4 ||| placeAt 0 e
  | .playNote ch note => placeAt 12 0b0010#4 ||| placeAt 8 ch ||| placeAt 0 note
  | .setVolume v => placeAt 12 0b0011#4 ||| placeAt 0 v
  | .getVolume => placeAt 12 0b0100#4
  | .getStatus => placeAt 12 0b0101#4

/-- A row of the opcode map: a word matches when `(w & mask) = value` (30_encoding.md R94). -/
structure OpcodeRow where
  mnemonic : String
  value : Word
  mask : Word
deriving DecidableEq, Repr

/-- The opcode map of 30_encoding.md R94. -/
def opcodeRows : List OpcodeRow :=
  [⟨"ENABLE_OUTPUT", 0x1000, 0xFFFE⟩, ⟨"PLAY_NOTE", 0x2000, 0xFC00⟩, ⟨"SET_VOLUME", 0x3000, 0xFFFC⟩,
   ⟨"GET_VOLUME", 0x4000, 0xFFFF⟩, ⟨"GET_STATUS", 0x5000, 0xFFFF⟩]

/-- Whether a word matches a row (30_encoding.md R94). -/
def OpcodeRow.hits (r : OpcodeRow) (w : Word) : Bool := w &&& r.mask == r.value

/-- The row a command stands in. -/
def Instr.row : Instr → OpcodeRow
  | .enableOutput _ => ⟨"ENABLE_OUTPUT", 0x1000, 0xFFFE⟩
  | .playNote _ _ => ⟨"PLAY_NOTE", 0x2000, 0xFC00⟩
  | .setVolume _ => ⟨"SET_VOLUME", 0x3000, 0xFFFC⟩
  | .getVolume => ⟨"GET_VOLUME", 0x4000, 0xFFFF⟩
  | .getStatus => ⟨"GET_STATUS", 0x5000, 0xFFFF⟩

/-! ### The assembler (30_encoding.md R99, R100) -/

/-- The words of a line whose operands fit, by R99's sums and R100's expansions. -/
def AsmLine.words : AsmLine → List Word
  | .enableOutput e => [BitVec.ofNat 16 (0x1000 + e)]
  | .playNote ch note => [BitVec.ofNat 16 (0x2000 + (ch <<< 8) + note)]
  | .setVolume v => [BitVec.ofNat 16 (0x3000 + v)]
  | .getVolume => [0x4000]
  | .getStatus => [0x5000]
  | .word w => [BitVec.ofNat 16 w]
  | .silence ch => [BitVec.ofNat 16 (0x20FF + (ch <<< 8))]
  | .outputOn => [0x1001]
  | .outputOff => [0x1000]
  | .silenceAll => [0x20FF, 0x21FF, 0x22FF]

/-- R99: the words of a line, or a refusal when an operand does not fit its field. -/
def assemble (l : AsmLine) : Option (List Word) :=
  if l.wf then some l.words else none

/-- The text of a line before its comment (R99: "`;` starts a comment"). -/
def dropComment : List Char → List Char
  | [] => []
  | c :: cs => if c = ';' then [] else c :: dropComment cs

/-- What separates the parts of a line (log 12). -/
def isSeparator (c : Char) : Bool := c == ' ' || c == '\t' || c == ',' || c == '\r' || c == '\n'

/-- The parts of a line between separators, `part` being the one that is being read. -/
def tokensFrom (part : List Char) : List Char → List (List Char)
  | [] => if part = [] then [] else [part]
  | c :: cs =>
    if isSeparator c then
      if part = [] then tokensFrom [] cs else part :: tokensFrom [] cs
    else tokensFrom (part ++ [c]) cs

/-- The value of a digit in base 16, in either case of letter. -/
def hexDigit (c : Char) : Option Nat :=
  if '0' ≤ c ∧ c ≤ '9' then some (c.toNat - 48)
  else if 'a' ≤ c ∧ c ≤ 'f' then some (c.toNat - 87)
  else if 'A' ≤ c ∧ c ≤ 'F' then some (c.toNat - 55)
  else none

/-- Digits of a base, the most significant first, added to what stands before them. -/
def digitsFrom (base acc : Nat) : List Char → Option Nat
  | [] => some acc
  | c :: cs =>
    match hexDigit c with
    | some d => if d < base then digitsFrom base (acc * base + d) cs else none
    | none => none

/-- A decimal or `0x` hexadecimal number (R99). -/
def parseNumber : List Char → Option Nat
  | [] => none
  | ['0', 'x'] => none
  | '0' :: 'x' :: ds => digitsFrom 16 0 ds
  | ds => digitsFrom 10 0 ds

/-- A note operand: a number, or `NONE` for 0xFF (R99). -/
def parseNote (t : List Char) : Option Nat :=
  if t = ['N', 'O', 'N', 'E'] then some 0xFF else parseNumber t

/-- The mnemonics of R99 and R100, as the characters of their names. -/
def namedLine : List (List Char) → Option AsmLine
  | [['G', 'E', 'T', '_', 'V', 'O', 'L', 'U', 'M', 'E']] => some .getVolume
  | [['G', 'E', 'T', '_', 'S', 'T', 'A', 'T', 'U', 'S']] => some .getStatus
  | [['O', 'U', 'T', 'P', 'U', 'T', '_', 'O', 'N']] => some .outputOn
  | [['O', 'U', 'T', 'P', 'U', 'T', '_', 'O', 'F', 'F']] => some .outputOff
  | [['S', 'I', 'L', 'E', 'N', 'C', 'E', '_', 'A', 'L', 'L']] => some .silenceAll
  | [['E', 'N', 'A', 'B', 'L', 'E', '_', 'O', 'U', 'T', 'P', 'U', 'T'], e] =>
    (parseNumber e).map .enableOutput
  | [['S', 'E', 'T', '_', 'V', 'O', 'L', 'U', 'M', 'E'], v] => (parseNumber v).map .setVolume
  | [['S', 'I', 'L', 'E', 'N', 'C', 'E'], ch] => (parseNumber ch).map .silence
  | [['.', 'w', 'o', 'r', 'd'], w] => (parseNumber w).map .word
  | [['P', 'L', 'A', 'Y', '_', 'N', 'O', 'T', 'E'], ch, note] =>
    match parseNumber ch, parseNote note with
    | some c, some n => some (.playNote c n)
    | _, _ => none
  | _ => none

/-- The words of one line of source text (R99): none of them for a line that is blank or a comment, and a refusal for a
line that has no meaning or an operand that does not fit. -/
def assembleText (line : List Char) : Option (List Word) :=
  match tokensFrom [] (dropComment line) with
  | [] => some []
  | ts => (namedLine ts).bind assemble

/-! ### The byte link (20_memory.md R74, R75) -/

/-- A word on a byte-wide link: the low byte first, the high byte second (R74). -/
def bytesOfWord (w : Word) : List Byte := [w.extractLsb' 0 8, w.extractLsb' 8 8]

/-- The whole words that arrived on a byte-wide link, and the lone byte left over, which is no command (R74, R75;
log 13). -/
def wordsOfBytes : List Byte → List Word × List Byte
  | lo :: hi :: rest => ((placeAt 8 hi ||| placeAt 0 lo) :: (wordsOfBytes rest).1, (wordsOfBytes rest).2)
  | rest => ([], rest)

end Sys2Proof
end

