-- ==== Sys2Proof/Machine/State.lean ====
section
/-! DEFINITION. The engine's state as plain data (10_state.md R49), the reasons a step can stop, and the state after
reset (70_reset_and_hazards.md R200). -/

namespace Sys2Proof.Machine

/-- One channel's own registers (10_state.md section 3). -/
structure Channel where
  /-- `CH_EN[n]`: the channel sounds and its timer counts (R40). -/
  chEn : Bool
  /-- `PERIOD[n]`: the ticks between two compare matches (R41). -/
  period : BitVec 16
  /-- `CNT[n]`: the phase counter (R43). -/
  cnt : BitVec 16
  /-- `PEND[n]`: a compare match waits for its service (R42). -/
  pend : Bool
deriving DecidableEq, Repr

/-- A channel after reset (10_state.md R49). -/
def Channel.reset : Channel := ⟨false, 0, 0, false⟩

/-- The whole state. The fields from `power` to `resp` are the tuple of 10_state.md R49. `cfg` is the configuration,
"a parameter of the step" that "never changes" (R49; log 1). `port`, `waiting`, `turns` and `round` are the model's
own: what the host does next and which agent moves next (60_exceptions.md R195; log 2, log 3, log 18). -/
structure State where
  /-- The configuration (00_scope.md R7; log 1). -/
  cfg : Config
  /-- `POWER` (R33). -/
  power : Bool
  /-- `MIX`, `LVL` in bits 2:0 and `VOL` in bits 4:3 (R34). -/
  mix : BitVec 5
  /-- `DUTY` (R37). -/
  duty : BitVec 8
  /-- `PWM_CNT` (R38). -/
  pwmCnt : BitVec 8
  /-- Channel 0's registers. -/
  ch0 : Channel
  /-- Channel 1's registers. -/
  ch1 : Channel
  /-- Channel 2's registers. -/
  ch2 : Channel
  /-- `ERR` (R47). -/
  err : BitVec 4
  /-- `RESP`, oldest word first (R48). -/
  resp : List Word
  /-- The command words that the host has yet to issue, the next one first (60_exceptions.md R195.1; log 3). DESIGN CHOICE: the
  stream is finite, of any length, and the host is idle past its end (log 19). -/
  port : List Word
  /-- The host waits for a response word, and until it has one it issues no command (70_reset_and_hazards.md R214;
  log 18). -/
  waiting : Bool
  /-- The turns to come, the next one first; past its end the order is free (log 2). -/
  turns : List Turn
  /-- Which stretch of the free order comes next (log 2). -/
  round : Nat
deriving DecidableEq, Repr

/-- The error bits of `ERR` (10_state.md R47; 60_exceptions.md R175). -/
inductive ErrKind where
  /-- A command word with no valid encoding (R171). -/
  | ill
  /-- `PLAY_NOTE` with channel field 3 (R172). -/
  | badCh
  /-- `PLAY_NOTE` with an invalid note (R173). -/
  | badNote
  /-- A compare match while the channel's `PEND` is already 1 (R174). -/
  | ovr
deriving DecidableEq, Repr

/-- Why the machine would stop with a fault. The type has no constructor: nothing raises one, because "No operation here
is fatal to the system" (60_exceptions.md R170), and the spec's "fault bits" are bits of `ERR` after which the engine goes
on (R182). Safe: a claim that no step faults is what the spec says (log 14). -/
inductive Fault where
deriving DecidableEq, Repr

/-- Why an instruction has no meaning in the model. -/
inductive Refusal where
  /-- Raised by an arm of `exec` that has no meaning yet; no arm is one. Safe: a refused instruction proves nothing. -/
  | notModelled (mnemonic : String)
deriving DecidableEq, Repr

/-- The state that reset gives under a configuration: R49's reset values, with no command to issue, a host that
does not wait, and the whole order of turns free (70_reset_and_hazards.md R200; log 2, log 3, log 18). -/
def State.resetUnder (c : Config) : State where
  cfg := c
  power := false
  mix := volReset ++ 0b000#3
  duty := c.dutyEntry 0
  pwmCnt := 0
  ch0 := Channel.reset
  ch1 := Channel.reset
  ch2 := Channel.reset
  err := 0
  resp := []
  port := []
  waiting := false
  turns := []
  round := 0

/-- The machine right after reset, with the hardware's own configuration (70_reset_and_hazards.md R200). -/
def State.reset : State := State.resetUnder Config.hw

end Sys2Proof.Machine
end

