-- ==== Sys2Proof/Machine/Operands.lean ====
section
/-! DEFINITION. The operand forms of the commands (30_encoding.md R92, R93) and the fields of `MIX`
(10_state.md R34, 00_scope.md R14). -/

namespace Sys2Proof.Machine

/-- The channel a `ch` field names: "Only 0, 1 and 2 name a channel" (30_encoding.md R92). -/
def chanOfField (ch : BitVec 2) : Option ChanId :=
  if ch = 0 then some .c0
  else if ch = 1 then some .c1
  else if ch = 2 then some .c2
  else none

/-- The field value that names a channel. -/
def fieldOfChan : ChanId → BitVec 2
  | .c0 => 0
  | .c1 => 1
  | .c2 => 2

/-- What a `note` field holds (30_encoding.md R92). -/
inductive NoteOperand where
  /-- `NOTE_NONE`. -/
  | none
  /-- An index below `NOTE_COUNT`. -/
  | index (i : Nat)
  /-- Any other value: a field-value error (R96). -/
  | invalid
deriving DecidableEq, Repr

/-- R92: the sentinel first, then the range check (40_commands.md R111). -/
def noteOperand (c : Config) (note : BitVec 8) : NoteOperand :=
  if note = noteNone then .none
  else if note.toNat < c.noteCount then .index note.toNat
  else .invalid

/-- `MIX.LVL`, the level mask (10_state.md R34). -/
def mixLvl (m : BitVec 5) : BitVec 3 := m.extractLsb' 0 3

/-- `MIX.VOL`, the volume (10_state.md R34). -/
def mixVol (m : BitVec 5) : BitVec 2 := m.extractLsb' 3 2

/-- The register from its two fields, `{VOL, LVL}` (20_memory.md R71). -/
def mixOf (vol : BitVec 2) (lvl : BitVec 3) : BitVec 5 := vol ++ lvl

/-- Only bit n of a level mask (10_state.md R34: bit n is channel n). -/
def lvlMask (n : ChanId) : BitVec 3 := 1#3 <<< n.idx

/-- A level mask with bit n cleared (40_commands.md R112). -/
def lvlClear (n : ChanId) (l : BitVec 3) : BitVec 3 := l &&& ~~~(lvlMask n)

/-- A level mask with bit n inverted (41_oscillators.md R143, 00_scope.md R14). -/
def lvlToggle (n : ChanId) (l : BitVec 3) : BitVec 3 := l ^^^ lvlMask n

end Sys2Proof.Machine
end

