-- ==== Sys2Proof/Machine/Flags.lean ====
section
/-! DEFINITION. The engine's status: the error bits (10_state.md R47), the channels' pending flags and enables as
masks, and the `STATUS` view (R45). -/

namespace Sys2Proof.Machine

/-- An error's cause code, its bit number in `ERR` (60_exceptions.md R175). -/
def ErrKind.code : ErrKind → Nat
  | .ill => 0
  | .badCh => 1
  | .badNote => 2
  | .ovr => 3

/-- `ERR` with one more bit set; bits already set stay (10_state.md R47). -/
def errWith (k : ErrKind) (e : BitVec 4) : BitVec 4 := e ||| (1#4 <<< k.code)

/-- Channel n's registers. -/
def State.chan (s : State) : ChanId → Channel
  | .c0 => s.ch0
  | .c1 => s.ch1
  | .c2 => s.ch2

/-- `MIX.VOL`. -/
def State.vol (s : State) : BitVec 2 := mixVol s.mix

/-- `MIX.LVL[n]`, the half of its square wave that channel n is in (10_state.md R34). -/
def State.lvl (s : State) (n : ChanId) : Bool := (mixLvl s.mix).getLsbD n.idx

/-- Whether `ERR` holds the bit of an error (10_state.md R47). -/
def State.errBit (s : State) (k : ErrKind) : Bool := s.err.getLsbD k.code

/-- Three channel bits as a mask, channel 2 in the most significant place (10_state.md R45). -/
def chanMask (f : Channel → Bool) (s : State) : BitVec 3 :=
  BitVec.ofBool (f s.ch2) ++ BitVec.ofBool (f s.ch1) ++ BitVec.ofBool (f s.ch0)

/-- The `STATUS` view (10_state.md R45):
`{ERR[3:0], PEND[2:0], POWER, VOL[1:0], LVL[2:0], CH_EN[2:0]}`, each field at its place in R45's table. -/
def State.statusWord (s : State) : Word :=
  placeAt 12 s.err ||| placeAt 9 (chanMask Channel.pend s) ||| placeAt 8 (BitVec.ofBool s.power) |||
    placeAt 6 (mixVol s.mix) ||| placeAt 3 (mixLvl s.mix) ||| placeAt 0 (chanMask Channel.chEn s)

/-- `PWM_OUT`, the one output pin: `POWER & (PWM_CNT < DUTY)` (41_oscillators.md R150, 10_state.md R39). -/
def State.pwmOut (s : State) : Bool := s.power && decide (s.pwmCnt < s.duty)

end Sys2Proof.Machine
end

