-- ==== Sys2Proof/Machine/Ops.lean ====
section
/-! DEFINITION. The named operations every command and event is written with: the table reads, the one writer of
`MIX`, the channel register file, the response stream, and raising an error (00_scope.md R11). -/

namespace Sys2Proof.Machine

/-- `NoteRead(i)` (20_memory.md R70). Outside the table, where no step reads, 0 (log 9). -/
def noteRead (c : Config) (i : Nat) : BitVec 16 := c.notePeriod.getD i 0

/-- `DutyRead(j)`, the index being the whole of `MIX` (20_memory.md R71). -/
def dutyRead (c : Config) (m : BitVec 5) : BitVec 8 := c.dutyEntry m.toNat

/-- Writes `MIX`, and `DUTY` with it: "every step that writes MIX also writes DUTY <- DutyRead(MIX')"
(10_state.md R37, 41_oscillators.md R147). -/
def State.setMix (s : State) (m : BitVec 5) : State := { s with mix := m, duty := dutyRead s.cfg m }

/-- Writes `MIX.LVL` and keeps `VOL` (20_memory.md R81). -/
def State.setLvl (s : State) (l : BitVec 3) : State := s.setMix (mixOf (mixVol s.mix) l)

/-- Writes `MIX.VOL` and keeps `LVL` (20_memory.md R81). -/
def State.setVol (s : State) (v : BitVec 2) : State := s.setMix (mixOf v (mixLvl s.mix))

/-- Writes channel n's registers. -/
def State.setChan (s : State) (n : ChanId) (c : Channel) : State :=
  match n with
  | .c0 => { s with ch0 := c }
  | .c1 => { s with ch1 := c }
  | .c2 => { s with ch2 := c }

/-- Applies one function to every channel's registers, all in the one step. -/
def State.mapChans (s : State) (f : Channel → Channel) : State :=
  { s with ch0 := f s.ch0, ch1 := f s.ch1, ch2 := f s.ch2 }

/-- `Respond(w)`: appends to the response stream (10_state.md R52). -/
def State.respond (s : State) (w : Word) : State := { s with resp := s.resp ++ [w] }

/-- Sets an error bit of `ERR`. -/
def State.setErr (s : State) (k : ErrKind) : State := { s with err := errWith k s.err }

/-- `raise CmdError(kind)`, on the state before the command: the error bit is set, and every other write of the command is
discarded (60_exceptions.md R170). -/
def raiseCmdError (k : ErrKind) (s : State) : State := s.setErr k

/-- A channel that starts a note: `PERIOD` loaded, `CNT` and `PEND` cleared, `CH_EN` set (40_commands.md R111). -/
def Channel.start (period : BitVec 16) : Channel := ⟨true, period, 0, false⟩

/-- A channel that is silenced: `PERIOD` kept (40_commands.md R110, R112). -/
def Channel.silence (c : Channel) : Channel := { c with chEn := false, cnt := 0, pend := false }

/-- Channel n starts note i (40_commands.md R111). -/
def startNote (n : ChanId) (i : Nat) (s : State) : State := s.setChan n (Channel.start (noteRead s.cfg i))

/-- Channel n is silenced (40_commands.md R112). -/
def silenceChan (n : ChanId) (s : State) : State :=
  (s.setChan n (s.chan n).silence).setLvl (lvlClear n (mixLvl s.mix))

/-- The engine is stopped, every channel silenced and the carrier cleared (40_commands.md R110 with e = 0). -/
def powerOff (s : State) : State :=
  { (s.mapChans Channel.silence).setLvl 0b000#3 with power := false, pwmCnt := 0 }

/-- The engine runs (40_commands.md R110 with e = 1). -/
def powerOn (s : State) : State := { s with power := true }

end Sys2Proof.Machine
end

