-- ==== Sys2Proof/Machine/Commands.lean ====
section
/-! DEFINITION. The meaning of each host command (40_commands.md R110 to R120), one indivisible step each
(20_memory.md R76). -/

namespace Sys2Proof.Machine

/-- `ENABLE_OUTPUT e` (40_commands.md R110). -/
def execEnableOutput (e : BitVec 1) (s : State) : Host.Outcome State Fault Refusal :=
  .next (if e = 1 then powerOn s else powerOff s)

/-- What `PLAY_NOTE ch, note` does: the channel is checked first, then the sentinel, then the note's range
(40_commands.md R111, R112; 60_exceptions.md R176). -/
def playNote (ch : BitVec 2) (note : BitVec 8) (s : State) : State :=
  match chanOfField ch with
  | none => raiseCmdError .badCh s
  | some n =>
    match noteOperand s.cfg note with
    | .none => silenceChan n s
    | .index i => startNote n i s
    | .invalid => raiseCmdError .badNote s

/-- `PLAY_NOTE ch, note` (40_commands.md R111, R112). -/
def execPlayNote (ch : BitVec 2) (note : BitVec 8) (s : State) : Host.Outcome State Fault Refusal :=
  .next (playNote ch note s)

/-- `SET_VOLUME v` (40_commands.md R114). -/
def execSetVolume (v : BitVec 2) (s : State) : Host.Outcome State Fault Refusal :=
  .next (s.setVol v)

/-- `GET_VOLUME` (40_commands.md R116): one response word, `zext_16(MIX.VOL)`. -/
def execGetVolume (s : State) : Host.Outcome State Fault Refusal :=
  .next (s.respond ((mixVol s.mix).setWidth 16))

/-- `GET_STATUS` (40_commands.md R118): one response word, the `STATUS` view. -/
def execGetStatus (s : State) : Host.Outcome State Fault Refusal :=
  .next (s.respond s.statusWord)

/-- `ILLEGAL`, a word that decodes to no command (40_commands.md R120; 60_exceptions.md R171). -/
def execIllegal (s : State) : Host.Outcome State Fault Refusal :=
  .next (raiseCmdError .ill s)

end Sys2Proof.Machine
end

