-- ==== Sys2Proof/Machine/Dispatch.lean ====
section
/-! DEFINITION. One arm per command. -/

namespace Sys2Proof.Machine

def exec (i : Instr) (s : State) : Host.Outcome State Fault Refusal :=
  match i with
  | .enableOutput e => Sys2Proof.Machine.execEnableOutput e s
  | .playNote ch note => Sys2Proof.Machine.execPlayNote ch note s
  | .setVolume v => Sys2Proof.Machine.execSetVolume v s
  | .getVolume => Sys2Proof.Machine.execGetVolume s
  | .getStatus => Sys2Proof.Machine.execGetStatus s

end Sys2Proof.Machine
end

