-- ==== Sys2Proof/Machine/Events.lean ====
section
/-! DEFINITION. The internal events (41_oscillators.md R140 to R148), the reset event (70_reset_and_hazards.md R200) and
the host's taking of a response word. No command word names them (30_encoding.md R98). -/

namespace Sys2Proof.Machine

/-- Whether the next tick is the channel's compare match: `CNT[n] + 1 = PERIOD[n]` at 16 bits, on an enabled channel
(41_oscillators.md R140, R141; 00_scope.md R14; log 8). -/
def Channel.atMatch (c : Channel) : Bool := c.chEn && decide (c.cnt + 1 = c.period)

/-- Whether the next tick's compare match finds the previous one still pending (41_oscillators.md R142). -/
def Channel.overruns (c : Channel) : Bool := c.atMatch && c.pend

/-- One timer tick of one channel (41_oscillators.md R140). -/
def Channel.tick (c : Channel) : Channel :=
  if c.chEn then
    if c.cnt + 1 = c.period then { c with cnt := 0, pend := true } else { c with cnt := c.cnt + 1 }
  else c

/-- Whether any channel's match is lost at the next tick (41_oscillators.md R142). -/
def State.anyOverrun (s : State) : Bool := s.ch0.overruns || s.ch1.overruns || s.ch2.overruns

/-- `TMR_TICK` (41_oscillators.md R140): all three channels in one step, and nothing while `POWER = 0`. -/
def tmrTick (s : State) : State :=
  if s.power then
    if s.anyOverrun then (s.mapChans Channel.tick).setErr .ovr else s.mapChans Channel.tick
  else s

/-- `PWM_TICK` (41_oscillators.md R148). -/
def pwmTick (s : State) : State :=
  if s.power then { s with pwmCnt := if s.pwmCnt = pwmTop then 0 else s.pwmCnt + 1 } else s

/-- The body of `CH_SERVICE(n)`: toggle, recompute, clear the pending flag (41_oscillators.md R143). It saves no state,
reads no vector and needs no return (60_exceptions.md R179, R180). -/
def serviceBody (n : ChanId) (s : State) : State :=
  (s.setChan n { s.chan n with pend := false }).setLvl (lvlToggle n (mixLvl s.mix))

/-- `CH_SERVICE(n)`, enabled when `PEND[n] = 1`; otherwise the event has no step and nothing changes
(41_oscillators.md R143; log 6). -/
def chService (n : ChanId) (s : State) : State :=
  if (s.chan n).pend then serviceBody n s else s

/-- The reset event (70_reset_and_hazards.md R200): every register at its reset value. The configuration is kept (R200), and
so is what lies outside the engine: the host's command stream, whether the host waits, and the order of turns (log 7). -/
def resetEvent (s : State) : State :=
  { State.resetUnder s.cfg with
    port := s.port, waiting := s.waiting, turns := s.turns, round := s.round }

/-- The host's reading of `RESP`: it takes the oldest word and goes on; with none there it takes nothing and waits, until a
reading finds a word (10_state.md R48 "the host consumes"; 70_reset_and_hazards.md R214; log 5, log 18). -/
def takeResponse (s : State) : State := { s with resp := s.resp.tail, waiting := s.resp.isEmpty }

end Sys2Proof.Machine
end

