-- ==== Sys2Proof/Machine/Turns.lean ====
section
/-! DEFINITION. Whose turn it is and what that agent does (60_exceptions.md R195): the free order of turns, the next
turn as data, and the action it stands for. -/

namespace Sys2Proof.Machine

/-- Stretch k of the free order: five free lists of turns with one turn of each clock and of each service between them.
Every order in which those five turns each come infinitely often is a sequence of such stretches, so the order is any that
60_exceptions.md R177 and R178 allow, and no other (log 15). -/
def freeRound (k : Nat) : List Turn :=
  Config.freeTurns (6 * k) ++ .timerClock ::
    (Config.freeTurns (6 * k + 1) ++ .pwmClock ::
      (Config.freeTurns (6 * k + 2) ++ .service .c0 ::
        (Config.freeTurns (6 * k + 3) ++ .service .c1 ::
          (Config.freeTurns (6 * k + 4) ++ .service .c2 :: Config.freeTurns (6 * k + 5)))))

/-- The turns to come as far as they are laid out: those listed, or the next stretch of the free order. -/
def State.agenda (s : State) : List Turn :=
  match s.turns with
  | [] => freeRound s.round
  | t :: ts => t :: ts

/-- Whose turn it is. A stretch of the free order is never empty, so the default is never used. -/
def State.nextTurn (s : State) : Turn := s.agenda.headD .timerClock

/-- The state once the turn is given. -/
def State.dropTurn (s : State) : State :=
  match s.turns with
  | [] => { s with turns := s.agenda.tail, round := s.round + 1 }
  | _ :: ts => { s with turns := ts }

/-- What a step does. -/
inductive Action where
  /-- The host's next word is this command (30_encoding.md R94). -/
  | command (i : Instr)
  /-- The host's next word is illegal (40_commands.md R120). -/
  | illegal
  /-- The host has no word to issue (60_exceptions.md R195.1 "It may be idle"; log 4). -/
  | idle
  /-- The host takes a response word, or waits (log 5, log 18). -/
  | takeResponse
  /-- `TMR_TICK`. -/
  | tmrTick
  /-- `PWM_TICK`. -/
  | pwmTick
  /-- `CH_SERVICE(n)`, where it is enabled. -/
  | service (n : ChanId)
  /-- Reset. -/
  | reset
deriving DecidableEq, Repr

/-- What the host does with the words it has still to issue. DESIGN CHOICE: they are finitely many, and when none is left the
host stays idle (log 19). -/
def hostAction : List Word → Action
  | [] => .idle
  | w :: _ =>
    match decode w with
    | .command i => .command i
    | .illegal _ => .illegal

/-- What the next step does. A host that waits issues no word: its turn is another reading (70_reset_and_hazards.md R214;
log 18). -/
def State.nextAction (s : State) : Action :=
  match s.nextTurn with
  | .host => if s.waiting then .takeResponse else hostAction s.port
  | .hostTake => .takeResponse
  | .timerClock => .tmrTick
  | .pwmClock => .pwmTick
  | .service n => .service n
  | .reset => .reset

/-- The state that the action sees: the turn is given, and on the turn of a host that does not wait the command word is
taken (30_encoding.md R90 "A decoder always consumes one word per command"). -/
def State.advance (s : State) : State :=
  match s.nextTurn with
  | .host => { s.dropTurn with port := if s.waiting then s.port else s.port.tail }
  | _ => s.dropTurn

/-- The effect of an action, one indivisible step (20_memory.md R76). -/
def perform (a : Action) (s : State) : Host.Outcome State Fault Refusal :=
  match a with
  | .command i => exec i s
  | .illegal => execIllegal s
  | .idle => .next s
  | .takeResponse => .next (Sys2Proof.Machine.takeResponse s)
  | .tmrTick => .next (Sys2Proof.Machine.tmrTick s)
  | .pwmTick => .next (Sys2Proof.Machine.pwmTick s)
  | .service n => .next (chService n s)
  | .reset => .next (resetEvent s)

/-- A word put where the host's next turn takes it from, that turn made the next one, and the host free to issue it
(log 3). -/
def State.issueNext (s : State) (w : Word) : State :=
  { s with port := w :: s.port, waiting := false, turns := .host :: s.turns }

end Sys2Proof.Machine
end

