-- ==== Sys2Proof/Machine/Step.lean ====
section
/-! DEFINITION. The machine's step: the agent whose turn it is acts (60_exceptions.md R195). -/

namespace Sys2Proof.Machine

/-- One step of the engine and its surroundings (20_memory.md R78). -/
def step (s : State) : Host.Outcome State Fault Refusal := perform s.nextAction s.advance

/-- `s` with a command word as the next one on the port and the host, which does not wait, as the next to move, so that the
next step performs it. This stands for the host's issuing of the word, which is how a program comes to run (log 3). DESIGN
CHOICE: fewer than 16 bits stand for the whole word whose other bits are 0, and of more the low 16 count (log 17). -/
def State.withFetchWord (s : State) (nbits w : Nat) : State := s.issueNext (BitVec.ofNat 16 (w % 2 ^ nbits))

end Sys2Proof.Machine
end

