-- ==== Sys2Proof/Safety.lean ====
section
/-! DEFINITION. What claims about runs are stated with: the invariants of 10_state.md R50, the error premises of
60_exceptions.md R182, and a run of k steps. -/

namespace Sys2Proof.Machine

/-- R50.1 to R50.3 for one channel. -/
structure ChanInv (s : State) (n : ChanId) : Prop where
  /-- R50.1. -/
  silent : (s.chan n).chEn = false → s.lvl n = false ∧ (s.chan n).cnt = 0 ∧ (s.chan n).pend = false
  /-- R50.2. -/
  counting : (s.chan n).chEn = true →
    1 ≤ (s.chan n).period.toNat ∧ (s.chan n).cnt.toNat < (s.chan n).period.toNat
  /-- R50.3. -/
  pending : (s.chan n).pend = true → (s.chan n).chEn = true ∧ s.power = true

/-- The invariants "that every step preserves from reset" (10_state.md R50), under a well-formed configuration
(70_reset_and_hazards.md R201.1). -/
structure State.Inv (s : State) : Prop where
  /-- R8, R201.1. -/
  cfgWf : s.cfg.wf = true
  /-- R50.1 to R50.3. -/
  chans : ∀ n, ChanInv s n
  /-- R50.4. -/
  dutyTracks : s.duty = dutyRead s.cfg s.mix
  /-- R50.5. -/
  stoppedCarrier : s.power = false → s.pwmCnt = 0

/-- No command of the run so far was refused: `ERR[2:0] = 0` (60_exceptions.md R182). -/
def State.commandsAccepted (s : State) : Prop :=
  s.errBit .ill = false ∧ s.errBit .badCh = false ∧ s.errBit .badNote = false

/-- No edge of the run so far was lost: `ERR.OVR = 0` (60_exceptions.md R182). -/
def State.noEdgeLost (s : State) : Prop := s.errBit .ovr = false

/-- The host waits for a response that is not there: the hang of 93_implementation_defined.md item 16. A waiting host issues no
command and only a command appends a response, so every later state is one too (70_reset_and_hazards.md R214; log 18;
Obligations.WaitIsForEver). That a reset does not end the wait is the model's choice (log 7). -/
def State.hostHangs (s : State) : Prop := s.waiting = true ∧ s.resp = []

/-- What lies outside the engine's own state is the same: the configuration, the host's command stream and whether it
waits, and the order of turns. -/
def sameSurroundings (s t : State) : Prop :=
  t.cfg = s.cfg ∧ t.port = s.port ∧ t.waiting = s.waiting ∧ t.turns = s.turns ∧ t.round = s.round

/-- The state after one step. A step always answers a next state; the other two answers stand here for totality. -/
def State.stepped (s : State) : State :=
  match step s with
  | .next t => t
  | .fault _ => s
  | .refused _ => s

/-- The state after k steps. -/
def State.after (s : State) : Nat → State
  | 0 => s
  | k + 1 => (s.after k).stepped

/-- The action leaves channel n to itself: it is no reset, no power-off and no `PLAY_NOTE` that names n
(41_oscillators.md R141, R145). -/
def leavesAlone (n : ChanId) (a : Action) : Prop :=
  a ≠ .reset ∧ a ≠ .command (.enableOutput 0) ∧ ∀ note, a ≠ .command (.playNote (fieldOfChan n) note)

/-- The note that an action starts on channel n, if it does: a `PLAY_NOTE` that names n with an index below
`NOTE_COUNT` (40_commands.md R111). -/
def Action.noteStarted (c : Config) (n : ChanId) : Action → Option Nat
  | .command (.playNote ch note) =>
    if ch = fieldOfChan n ∧ note ≠ noteNone ∧ note.toNat < c.noteCount then some note.toNat else none
  | _ => none

/-- Whether an action silences channel n on its own: a `PLAY_NOTE` that names n with `NOTE_NONE` (40_commands.md R112). -/
def Action.silences (n : ChanId) (a : Action) : Bool := decide (a = .command (.playNote (fieldOfChan n) noteNone))

/-- Whether an action silences every channel: reset or `ENABLE_OUTPUT 0` (70_reset_and_hazards.md R200, 40_commands.md
R110). -/
def Action.silencesAll (a : Action) : Bool := decide (a = .reset) || decide (a = .command (.enableOutput 0))

/-- The volume that the last `SET_VOLUME` of the first k steps from s set, or s's own (40_commands.md R115). -/
def State.lastVolume (s : State) : Nat → BitVec 2
  | 0 => s.vol
  | k + 1 =>
    match (s.after k).nextAction with
    | .command (.setVolume v) => v
    | _ => s.lastVolume k

/-- How many of the first k steps from s are `PWM_TICK`s. -/
def State.pwmTickCount (s : State) (k : Nat) : Nat :=
  (List.range k).countP fun j => decide ((s.after j).nextAction = .pwmTick)

/-- How many of the first k steps from s are `TMR_TICK`s. -/
def State.tickCount (s : State) (k : Nat) : Nat :=
  (List.range k).countP fun j => decide ((s.after j).nextAction = .tmrTick)

/-- How many of the first k steps from s are services of channel n that take place. -/
def State.serviceCount (s : State) (n : ChanId) (k : Nat) : Nat :=
  (List.range k).countP fun j =>
    decide ((s.after j).nextAction = .service n) && ((s.after j).chan n).pend

/-- How many of the first k steps from s are compare matches of channel n (41_oscillators.md R141). -/
def State.matchCount (s : State) (n : ChanId) (k : Nat) : Nat :=
  (List.range k).countP fun j =>
    decide ((s.after j).nextAction = .tmrTick) && (s.after j).power && ((s.after j).chan n).atMatch

end Sys2Proof.Machine
end

