-- ==== Sys2Proof/Certificates/Slice0/Obligations.lean ====
section
/-! DEFINITION. The statements for the provers. Each docstring names the rule of spec/ that it formalises. -/

open Sys2Proof Sys2Proof.Machine

/-! ### Encoding, assembler and byte link -/

/-- 30_encoding.md R101: the worked encodings. -/
def Obligations.WorkedEncodings : Prop :=
  encode (.playNote 1 5) = 0b0010000100000101#16 ∧ encode (.playNote 1 5) = 0x2105 ∧
  decode 0x2105 = .command (.playNote 1 5) ∧
  assemble (.silence 2) = some [0x22FF] ∧ decode 0x22FF = .command (.playNote 2 0xFF) ∧
  encode (.setVolume 3) = 0x3003 ∧ decode 0x3003 = .command (.setVolume 3) ∧
  encode (.enableOutput 1) = 0x1001 ∧ decode 0x1001 = .command (.enableOutput 1) ∧
  encode .getStatus = 0x5000 ∧ decode 0x5000 = .command .getStatus ∧
  decode 0x2300 = .command (.playNote 3 0) ∧
  (∀ s, exec (.playNote 3 0) s = .next { s with err := s.err ||| 0b0010#4 }) ∧
  decode 0x1002 = .illegal .reservedBits ∧
  decode 0x6000 = .illegal .unassignedOpcode

/-- 30_encoding.md R91, R92, R94: no bit of a command is dropped by its word. -/
def Obligations.DecodeOfEncode : Prop := ∀ i : Instr, decode (encode i) = .command i

/-- 30_encoding.md R94: a decodable word has no meaning beside its command's own word. -/
def Obligations.EncodeOfDecode : Prop := ∀ (w : Word) (i : Instr), decode w = .command i → encode i = w

/-- 30_encoding.md R94: the decoder is the opcode map. A word decodes to a command exactly when it matches a row, to the
command of that row with the fields of the word, at most one row matches, and a word that matches none is illegal. -/
def Obligations.OpcodeMapIsDecoder : Prop :=
  ∀ w : Word,
    (∀ i, decode w = .command i →
      i.row ∈ opcodeRows ∧ w &&& i.row.mask = i.row.value ∧
      match i with
      | .enableOutput e => e = w.extractLsb' 0 1
      | .playNote ch note => ch = w.extractLsb' 8 2 ∧ note = w.extractLsb' 0 8
      | .setVolume v => v = w.extractLsb' 0 2
      | .getVolume => True
      | .getStatus => True) ∧
    (∀ r ∈ opcodeRows, w &&& r.mask = r.value → ∃ i, decode w = .command i ∧ i.row = r) ∧
    (∀ r ∈ opcodeRows, ∀ r' ∈ opcodeRows, w &&& r.mask = r.value → w &&& r'.mask = r'.value → r = r') ∧
    ((∀ r ∈ opcodeRows, w &&& r.mask ≠ r.value) ↔ ∃ why, decode w = .illegal why)

/-- 30_encoding.md R95: the counts of legal and illegal words. -/
def Obligations.DecodableWordCounts : Prop :=
  Nat.card { w : Word // ∃ e, decode w = .command (.enableOutput e) } = 2 ∧
  Nat.card { w : Word // ∃ ch note, decode w = .command (.playNote ch note) } = 1024 ∧
  Nat.card { w : Word // ∃ v, decode w = .command (.setVolume v) } = 4 ∧
  Nat.card { w : Word // decode w = .command .getVolume } = 1 ∧
  Nat.card { w : Word // decode w = .command .getStatus } = 1 ∧
  Nat.card { w : Word // ∃ i, decode w = .command i } = 1032 ∧
  Nat.card { w : Word // ∃ why, decode w = .illegal why } = 64504

/-- 30_encoding.md R97: which words are illegal, and that the step of an illegal word sets `ERR.ILL` and does nothing
else, whatever the word. The host has its turn and does not wait (log 2, log 3, log 18); what a waiting host's turn does is in
StepRunsTheAgent. -/
def Obligations.IllegalWordsAreReserved : Prop :=
  (∀ w : Word, (∃ why, decode w = .illegal why) ↔
    opField w = 0b0000#4 ∨ 0b0110#4 ≤ opField w ∨
    (opField w = 0b0001#4 ∧ w.extractLsb' 1 11 ≠ 0#11) ∨
    (opField w = 0b0010#4 ∧ w.extractLsb' 10 2 ≠ 0#2) ∨
    (opField w = 0b0011#4 ∧ w.extractLsb' 2 10 ≠ 0#10) ∨
    ((opField w = 0b0100#4 ∨ opField w = 0b0101#4) ∧ w.extractLsb' 0 12 ≠ 0#12)) ∧
  (∃ why, decode 0x0000 = .illegal why) ∧
  (∀ s ts w ws why, s.turns = .host :: ts → s.waiting = false → s.port = w :: ws → decode w = .illegal why →
    step s = .next { s with turns := ts, port := ws, err := s.err ||| 0b0001#4 })

/-- 30_encoding.md R99, R100: the assembler gives each line its command's word, refuses an operand that does not fit, and
expands the pseudo-commands. -/
def Obligations.AssemblerGivesTheWords : Prop :=
  (∀ e, assemble (.enableOutput e) = if e ≤ 1 then some [encode (.enableOutput (BitVec.ofNat 1 e))] else none) ∧
  (∀ ch note, assemble (.playNote ch note) =
    if ch ≤ 3 ∧ note ≤ 0xFF then some [encode (.playNote (BitVec.ofNat 2 ch) (BitVec.ofNat 8 note))] else none) ∧
  (∀ v, assemble (.setVolume v) = if v ≤ 3 then some [encode (.setVolume (BitVec.ofNat 2 v))] else none) ∧
  assemble .getVolume = some [encode .getVolume] ∧
  assemble .getStatus = some [encode .getStatus] ∧
  (∀ w, assemble (.word w) = if w ≤ 0xFFFF then some [BitVec.ofNat 16 w] else none) ∧
  (∀ ch, assemble (.silence ch) = assemble (.playNote ch 0xFF)) ∧
  assemble .outputOn = assemble (.enableOutput 1) ∧
  assemble .outputOff = assemble (.enableOutput 0) ∧
  assemble .silenceAll =
    some [encode (.playNote 0 noteNone), encode (.playNote 1 noteNone), encode (.playNote 2 noteNone)]

/-- 20_memory.md R74, R75: words go over a byte link low byte first, and whole words only are read back. R75 leaves a lone
byte outside the engine: that it is given back as the remainder, the third clause, is the model's own reading (log 13). -/
def Obligations.ByteLinkRoundTrip : Prop :=
  (∀ w : Word, bytesOfWord w = [w.extractLsb' 0 8, w.extractLsb' 8 8]) ∧
  (∀ ws : List Word, wordsOfBytes (ws.flatMap bytesOfWord) = (ws, [])) ∧
  (∀ (ws : List Word) (b : Byte), wordsOfBytes (ws.flatMap bytesOfWord ++ [b]) = (ws, [b]))

/-! ### What a step runs -/

/-- 60_exceptions.md R195.1, 30_encoding.md R90, R94: on the turn of a host that does not wait a step performs the command
that the next word decodes to, with the word and the turn gone. The second part is the same for a word that `withFetchWord`
puts there, which leaves a host that does not wait. What a waiting host's turn does is in StepRunsTheAgent. -/
def Obligations.StepRunsDecodedCommand : Prop :=
  (∀ s ts w ws i, s.turns = .host :: ts → s.waiting = false → s.port = w :: ws → decode w = .command i →
    step s = exec i { s with turns := ts, port := ws }) ∧
  (∀ (s : State) (w : Word) i, decode w = .command i →
    step (s.withFetchWord 16 w.toNat) = exec i { s with waiting := false })

/-- 60_exceptions.md R195: each other agent's turn performs its own event, a host with no word is idle, and a host that
waits only reads. That a host without a word changes nothing, that a response is taken by a turn of its own, and that a
waiting host is one that issues no word, are the model's choices (log 4, log 5, log 18). -/
def Obligations.StepRunsTheAgent : Prop :=
  ∀ s ts,
    (s.turns = .timerClock :: ts → step s = .next (tmrTick { s with turns := ts })) ∧
    (s.turns = .pwmClock :: ts → step s = .next (pwmTick { s with turns := ts })) ∧
    (∀ n, s.turns = .service n :: ts → step s = .next (chService n { s with turns := ts })) ∧
    (s.turns = .reset :: ts → step s = .next (resetEvent { s with turns := ts })) ∧
    (s.turns = .hostTake :: ts → step s = .next { s with turns := ts, resp := s.resp.tail, waiting := s.resp.isEmpty }) ∧
    (s.turns = .host :: ts → s.waiting = false → s.port = [] → step s = .next { s with turns := ts }) ∧
    (s.turns = .host :: ts → s.waiting = true →
      step s = .next { s with turns := ts, resp := s.resp.tail, waiting := s.resp.isEmpty })

/-- 60_exceptions.md R170 "It does not halt": every step answers a next state. -/
def Obligations.EveryStepCompletes : Prop := ∀ s, ∃ t, step s = .next t

/-- 60_exceptions.md R178: from every state, and after any number of steps, each service's turn and each clock's tick comes
again. How the model makes the order fair, and that a reset leaves the order as it is, are its own choices (log 15, log 7). -/
def Obligations.ScheduleIsFair : Prop :=
  ∀ (s : State) (k : Nat),
    (∀ n, ∃ j, k ≤ j ∧ (s.after j).nextAction = .service n) ∧
    (∃ j, k ≤ j ∧ (s.after j).nextAction = .tmrTick) ∧
    (∃ j, k ≤ j ∧ (s.after j).nextAction = .pwmTick)

/-- 60_exceptions.md R178, 41_oscillators.md R144: neither the latency of a service nor the number of ticks in between is
bounded. -/
def Obligations.ServiceLatencyUnbounded : Prop :=
  ∀ (n : ChanId) (k : Nat), ∃ s : State, s.Inv ∧ (s.chan n).pend = true ∧ s.tickCount k = k ∧
    ((s.after k).chan n).pend = true ∧ s.serviceCount n k = 0

/-! ### Who writes each register: over every step -/

/-- 10_state.md R33, 60_exceptions.md R187: only `ENABLE_OUTPUT` and reset write `POWER`, and while it is 0 the clocks
change nothing and the pin is low. -/
def Obligations.PowerAfterStep : Prop :=
  (∀ s t, step s = .next t → t.power =
    if s.nextAction.silencesAll then false
    else if s.nextAction = .command (.enableOutput 1) then true
    else s.power) ∧
  (∀ s : State, s.power = false → s.pwmOut = false ∧ tmrTick s = s ∧ pwmTick s = s)

/-- 10_state.md R35: the writers of `MIX.LVL`, and what each makes of a level bit. -/
def Obligations.LevelAfterStep : Prop :=
  ∀ s t n, step s = .next t → t.lvl n =
    if s.nextAction.silencesAll || s.nextAction.silences n then false
    else if s.nextAction = .service n ∧ (s.chan n).pend = true then !s.lvl n
    else s.lvl n

/-- 10_state.md R36: `SET_VOLUME` and reset write `MIX.VOL`; no event and no `ENABLE_OUTPUT` does. -/
def Obligations.VolumeAfterStep : Prop :=
  ∀ s t, step s = .next t → t.vol =
    match s.nextAction with
    | .command (.setVolume v) => v
    | .reset => 0
    | _ => s.vol

/-- 41_oscillators.md R147: the steps that change `MIX` are those of the list (and reset), each writes
`DUTY <- DutyRead(MIX')`, and `DUTY = DutyRead(MIX)` is kept by every step. -/
def Obligations.DutyTracksMix : Prop :=
  ∀ s t, step s = .next t →
    (t.mix ≠ s.mix →
      t.duty = dutyRead s.cfg t.mix ∧
      ((∃ n, s.nextAction = .service n) ∨ (∃ n, s.nextAction.silences n = true) ∨
        (∃ v, s.nextAction = .command (.setVolume v)) ∨ s.nextAction.silencesAll = true)) ∧
    (s.duty = dutyRead s.cfg s.mix → t.duty = dutyRead t.cfg t.mix)

/-- 10_state.md R40: the writers of `CH_EN[n]`. -/
def Obligations.ChannelEnableAfterStep : Prop :=
  ∀ s t n, step s = .next t → (t.chan n).chEn =
    if s.nextAction.silencesAll || s.nextAction.silences n then false
    else if (s.nextAction.noteStarted s.cfg n).isSome then true
    else (s.chan n).chEn

/-- 10_state.md R41: only a `PLAY_NOTE` that starts a note writes `PERIOD[n]`, with the note's table entry; silencing
leaves it unchanged; reset clears it. -/
def Obligations.PeriodAfterStep : Prop :=
  ∀ s t n, step s = .next t → (t.chan n).period =
    if s.nextAction = .reset then 0
    else match s.nextAction.noteStarted s.cfg n with
      | some i => noteRead s.cfg i
      | none => (s.chan n).period

/-- 10_state.md R43, 41_oscillators.md R140: the writers of `CNT[n]`. -/
def Obligations.CounterAfterStep : Prop :=
  ∀ s t n, step s = .next t → (t.chan n).cnt =
    if s.nextAction.silencesAll || s.nextAction.silences n || (s.nextAction.noteStarted s.cfg n).isSome then 0
    else if s.nextAction = .tmrTick ∧ s.power = true ∧ (s.chan n).chEn = true then
      if (s.chan n).cnt + 1 = (s.chan n).period then 0 else (s.chan n).cnt + 1
    else (s.chan n).cnt

/-- 10_state.md R42, 60_exceptions.md R177: what sets `PEND[n]` and what clears it. -/
def Obligations.PendingAfterStep : Prop :=
  ∀ s t n, step s = .next t → (t.chan n).pend =
    if s.nextAction.silencesAll || s.nextAction.silences n || (s.nextAction.noteStarted s.cfg n).isSome then false
    else if s.nextAction = .service n then false
    else if s.nextAction = .tmrTick ∧ s.power = true ∧ (s.chan n).chEn = true ∧
        (s.chan n).cnt + 1 = (s.chan n).period then true
    else (s.chan n).pend

/-- 10_state.md R38, 41_oscillators.md R148: the writers of `PWM_CNT`. -/
def Obligations.CarrierAfterStep : Prop :=
  ∀ s t, step s = .next t → t.pwmCnt =
    if s.nextAction.silencesAll then 0
    else if s.nextAction = .pwmTick ∧ s.power = true then
      if s.pwmCnt = 255 then 0 else s.pwmCnt + 1
    else s.pwmCnt

/-- 10_state.md R47: what sets each bit of `ERR`; once set, a bit stays until reset. -/
def Obligations.ErrorBitsAfterStep : Prop :=
  ∀ s t, step s = .next t →
    (t.err.getLsbD 0 = true ↔ s.nextAction ≠ .reset ∧ (s.err.getLsbD 0 = true ∨ s.nextAction = .illegal)) ∧
    (t.err.getLsbD 1 = true ↔ s.nextAction ≠ .reset ∧
      (s.err.getLsbD 1 = true ∨ ∃ note, s.nextAction = .command (.playNote 3 note))) ∧
    (t.err.getLsbD 2 = true ↔ s.nextAction ≠ .reset ∧
      (s.err.getLsbD 2 = true ∨ ∃ ch note, s.nextAction = .command (.playNote ch note) ∧ ch ≠ 3 ∧
        note ≠ 0xFF ∧ s.cfg.noteCount ≤ note.toNat)) ∧
    (t.err.getLsbD 3 = true ↔ s.nextAction ≠ .reset ∧
      (s.err.getLsbD 3 = true ∨ (s.nextAction = .tmrTick ∧ s.power = true ∧
        ∃ n, (s.chan n).chEn = true ∧ (s.chan n).cnt + 1 = (s.chan n).period ∧ (s.chan n).pend = true)))

/-- 10_state.md R48, 40_commands.md R119: exactly the two queries append a word, reset empties the stream, and the engine
never reads it: of a step, only whether the host still waits depends on it. That a turn of the host takes the oldest word, and
that the host's wait is part of State, are the model's choices (log 5, log 18). -/
def Obligations.ResponsesAfterStep : Prop :=
  (∀ s t, step s = .next t → t.resp =
    match s.nextAction with
    | .command .getVolume => s.resp ++ [s.vol.setWidth 16]
    | .command .getStatus => s.resp ++ [s.statusWord]
    | .reset => []
    | .takeResponse => s.resp.tail
    | _ => s.resp) ∧
  (∀ (s : State) (r : List Word) t t', step s = .next t → step { s with resp := r } = .next t' →
    { t' with resp := [], waiting := false } = { t with resp := [], waiting := false })

/-! ### The commands -/

/-- 40_commands.md R110: both branches of `ENABLE_OUTPUT`, its encoding, and the example. -/
def Obligations.EnableOutputResult : Prop :=
  (∀ e, encode (.enableOutput e) = 0x1000 + e.setWidth 16) ∧
  (∀ s, ∃ t, exec (.enableOutput 1) s = .next t ∧ t.power = true ∧ t.mix = s.mix ∧ t.duty = s.duty ∧
    t.pwmCnt = s.pwmCnt ∧ (∀ n, t.chan n = s.chan n) ∧ t.err = s.err ∧ t.resp = s.resp ∧ sameSurroundings s t) ∧
  (∀ s, ∃ t, exec (.enableOutput 0) s = .next t ∧ t.power = false ∧
    (∀ n, (t.chan n).chEn = false ∧ (t.chan n).cnt = 0 ∧ (t.chan n).pend = false ∧
      (t.chan n).period = (s.chan n).period) ∧
    (∀ n, t.lvl n = false) ∧ t.vol = s.vol ∧ t.duty = dutyRead s.cfg (s.vol ++ 0b000#3) ∧ t.pwmCnt = 0 ∧
    t.err = s.err ∧ t.resp = s.resp ∧ sameSurroundings s t) ∧
  (∀ s t, s.cfg = Config.ex → s.power = true → chanMask Channel.chEn s = 0b011#3 → s.mix = 0b10001#5 →
    s.duty = 60 → exec (.enableOutput 0) s = .next t →
    t.power = false ∧ chanMask Channel.chEn t = 0b000#3 ∧ t.mix = 0b10000#5 ∧ t.duty = 0 ∧ t.pwmOut = false)

/-- 40_commands.md R111, the note index form: on a channel 0..2 with an index below `NOTE_COUNT` the command loads the
period, restarts the count, drops a pending match and enables the channel; the level, the other channels and everything
else stay, whatever the power state and whether or not the channel sounds already. -/
def Obligations.PlayNoteStartsTheChannel : Prop :=
  ∀ (n : ChanId) (note : BitVec 8) (s : State), note ≠ 0xFF → note.toNat < s.cfg.noteCount →
    ∃ t, exec (.playNote (fieldOfChan n) note) s = .next t ∧
      (t.chan n).period = noteRead s.cfg note.toNat ∧ (t.chan n).cnt = 0 ∧ (t.chan n).pend = false ∧
      (t.chan n).chEn = true ∧
      (∀ m, m ≠ n → t.chan m = s.chan m) ∧
      t.mix = s.mix ∧ t.duty = s.duty ∧ t.power = s.power ∧ t.pwmCnt = s.pwmCnt ∧ t.err = s.err ∧
      t.resp = s.resp ∧ sameSurroundings s t

/-- 40_commands.md R112: the silence form, its encoding, and the example. -/
def Obligations.PlayNoteSilencesTheChannel : Prop :=
  (∀ n, encode (.playNote (fieldOfChan n) 0xFF) = 0x20FF + ((fieldOfChan n).setWidth 16 <<< 8)) ∧
  (∀ (n : ChanId) (s : State), ∃ t, exec (.playNote (fieldOfChan n) 0xFF) s = .next t ∧
    (t.chan n).chEn = false ∧ (t.chan n).cnt = 0 ∧ (t.chan n).pend = false ∧
    (t.chan n).period = (s.chan n).period ∧ t.lvl n = false ∧ t.duty = dutyRead s.cfg t.mix ∧ t.vol = s.vol ∧
    (∀ m, m ≠ n → t.chan m = s.chan m ∧ t.lvl m = s.lvl m) ∧
    t.power = s.power ∧ t.pwmCnt = s.pwmCnt ∧ t.err = s.err ∧ t.resp = s.resp ∧ sameSurroundings s t) ∧
  (∀ s, exec (.playNote 3 0xFF) s = .next { s with err := s.err ||| 0b0010#4 }) ∧
  (∀ s t, s.cfg = Config.ex → chanMask Channel.chEn s = 0b011#3 → s.mix = 0b00011#5 → s.duty = 40 →
    exec (.playNote 0 0xFF) s = .next t →
    chanMask Channel.chEn t = 0b010#3 ∧ t.mix = 0b00010#5 ∧ t.duty = 20)

/-- 60_exceptions.md R172, R173, R176: channel 3 raises only `BAD_CH`, whatever the note holds; a note that is neither an
index nor the sentinel raises only `BAD_NOTE`; nothing else changes, and the bits are `STATUS` bits 13 and 14. -/
def Obligations.PlayNoteErrors : Prop :=
  (∀ (note : BitVec 8) (s : State), ∃ t, exec (.playNote 3 note) s = .next t ∧
    t = { s with err := s.err ||| 0b0010#4 } ∧ t.statusWord.getLsbD 13 = true) ∧
  (∀ (ch : BitVec 2) (note : BitVec 8) (s : State), ch ≠ 3 → s.cfg.noteCount ≤ note.toNat → note ≠ 0xFF →
    ∃ t, exec (.playNote ch note) s = .next t ∧
      t = { s with err := s.err ||| 0b0100#4 } ∧ t.statusWord.getLsbD 14 = true) ∧
  (∀ s : State, exec (.playNote 3 0x80) s = .next { s with err := s.err ||| 0b0010#4 })

/-- 40_commands.md R114: `SET_VOLUME` writes the volume and the duty value and nothing else; with its encoding and the
example. -/
def Obligations.SetVolumeResult : Prop :=
  (∀ v, encode (.setVolume v) = 0x3000 + v.setWidth 16) ∧
  (∀ (v : BitVec 2) (s : State), ∃ t, exec (.setVolume v) s = .next t ∧
    t.vol = v ∧ (∀ n, t.lvl n = s.lvl n) ∧ t.duty = dutyRead s.cfg t.mix ∧
    (∀ n, t.chan n = s.chan n) ∧ t.power = s.power ∧ t.pwmCnt = s.pwmCnt ∧ t.err = s.err ∧ t.resp = s.resp ∧
    sameSurroundings s t) ∧
  (∀ s t, s.cfg = Config.ex → s.mix = 0b00101#5 → s.duty = 40 → exec (.setVolume 3) s = .next t →
    t.mix = 0b11101#5 ∧ t.duty = 160)

/-- 40_commands.md R116: `GET_VOLUME` appends the volume, zero-extended, and writes no register; with the example. -/
def Obligations.GetVolumeResult : Prop :=
  encode .getVolume = 0x4000 ∧
  (∀ s : State, exec .getVolume s = .next { s with resp := s.resp ++ [s.vol.setWidth 16] }) ∧
  (∀ s t, s.mix = 0b10110#5 → exec .getVolume s = .next t → t.resp = s.resp ++ [0x0002])

/-- 10_state.md R45: `GET_STATUS` appends one word, of the layout of R45, and writes no register. -/
def Obligations.GetStatusResult : Prop :=
  ∀ s : State, ∃ w : Word, exec .getStatus s = .next { s with resp := s.resp ++ [w] } ∧
    (∀ n : ChanId, w.getLsbD n.idx = (s.chan n).chEn) ∧
    (∀ n : ChanId, w.getLsbD (3 + n.idx) = s.lvl n) ∧
    w.extractLsb' 6 2 = s.vol ∧
    w.getLsbD 8 = s.power ∧
    (∀ n : ChanId, w.getLsbD (9 + n.idx) = (s.chan n).pend) ∧
    w.extractLsb' 12 4 = s.err

/-- 40_commands.md R120, 60_exceptions.md R171: the meaning of a word that is no command, at the engine and at the step:
`ERR.ILL`, which is `STATUS` bit 12, and no response, the illegal forms of a query among them. -/
def Obligations.IllegalWordPerformed : Prop :=
  (∀ s, ∃ t, execIllegal s = .next t ∧ t = { s with err := s.err ||| 0b0001#4 } ∧
    t.statusWord.getLsbD 12 = true ∧ t.resp = s.resp) ∧
  (∀ s ts w ws why, s.turns = .host :: ts → s.waiting = false → s.port = w :: ws → decode w = .illegal why →
    step s = execIllegal { s with turns := ts, port := ws }) ∧
  decode 0x4001 = .illegal .reservedBits ∧ decode 0x6000 = .illegal .unassignedOpcode

/-- 20_memory.md R77: a query's only effect is one word, and two queries of one kind in a row append equal words. -/
def Obligations.QueriesRepeat : Prop :=
  ∀ i, i = .getVolume ∨ i = .getStatus → ∀ s t u, exec i s = .next t → exec i t = .next u →
    ∃ w, t = { s with resp := s.resp ++ [w] } ∧ u = { s with resp := s.resp ++ [w, w] }

/-- 40_commands.md R117: the response of `GET_VOLUME` is `STATUS[7:6]` of a `GET_STATUS` issued in its place. -/
def Obligations.VolumeIsStatusField : Prop :=
  ∀ s : State, ∃ w v : Word, exec .getVolume s = .next { s with resp := s.resp ++ [w] } ∧
    exec .getStatus s = .next { s with resp := s.resp ++ [v] } ∧ w = (v.extractLsb' 6 2).setWidth 16

/-- 60_exceptions.md R170: a command that raises an error changes nothing but `ERR`, with at most one more bit set, and
answers a next state; an illegal word likewise. -/
def Obligations.ErrorDiscardsOtherWrites : Prop :=
  ∀ s t, (∃ i, exec i s = .next t) ∨ execIllegal s = .next t → t.err ≠ s.err →
    t = { s with err := t.err } ∧ ∃ k : ErrKind, k ≠ .ovr ∧ t.err = s.err ||| (1#4 <<< k.code)

/-- 60_exceptions.md R196, 30_encoding.md R96: a command that keeps to the host's contract sets no error bit, and one that
does not sets one and has no other effect. -/
def Obligations.ContractDecidesErrors : Prop :=
  ∀ i s t, exec i s = .next t →
    (i.honoursContract s.cfg = true → t.err = s.err) ∧
    (i.honoursContract s.cfg = false →
      t = { s with err := s.err ||| 0b0010#4 } ∨ t = { s with err := s.err ||| 0b0100#4 })

/-! ### The events -/

/-- 41_oscillators.md R140: the timer tick, channel by channel, its error bit, its frame, that under the invariants the
counter never wraps and a period of 1 matches at every tick, and the example. -/
def Obligations.TimerTickResult : Prop :=
  (∀ s : State, s.power = false → tmrTick s = s) ∧
  (∀ s : State, s.power = true →
    (∀ n, ((tmrTick s).chan n).chEn = (s.chan n).chEn ∧ ((tmrTick s).chan n).period = (s.chan n).period) ∧
    (∀ n, (s.chan n).chEn = false → (tmrTick s).chan n = s.chan n) ∧
    (∀ n, (s.chan n).chEn = true → (s.chan n).cnt + 1 = (s.chan n).period →
      ((tmrTick s).chan n).cnt = 0 ∧ ((tmrTick s).chan n).pend = true) ∧
    (∀ n, (s.chan n).chEn = true → (s.chan n).cnt + 1 ≠ (s.chan n).period →
      ((tmrTick s).chan n).cnt = (s.chan n).cnt + 1 ∧ ((tmrTick s).chan n).pend = (s.chan n).pend) ∧
    ((∃ n, (s.chan n).chEn = true ∧ (s.chan n).cnt + 1 = (s.chan n).period ∧ (s.chan n).pend = true) →
      (tmrTick s).err = s.err ||| 0b1000#4) ∧
    ((¬ ∃ n, (s.chan n).chEn = true ∧ (s.chan n).cnt + 1 = (s.chan n).period ∧ (s.chan n).pend = true) →
      (tmrTick s).err = s.err)) ∧
  (∀ s : State, (tmrTick s).mix = s.mix ∧ (tmrTick s).duty = s.duty ∧ (tmrTick s).power = s.power ∧
    (tmrTick s).pwmCnt = s.pwmCnt ∧ (tmrTick s).resp = s.resp ∧ sameSurroundings s (tmrTick s)) ∧
  (∀ s : State, s.Inv → ∀ n, (s.chan n).chEn = true →
    ((s.chan n).cnt + 1).toNat = (s.chan n).cnt.toNat + 1 ∧
    ((s.chan n).period = 1 → (s.chan n).cnt + 1 = (s.chan n).period)) ∧
  (∀ s : State, s.power = true → s.chan .c1 = { chEn := true, period := 2, cnt := 1, pend := false } →
    (tmrTick s).chan .c1 = { chEn := true, period := 2, cnt := 0, pend := true })

/-- 41_oscillators.md R148: the carrier tick, its wrap and its frame. -/
def Obligations.PwmTickResult : Prop :=
  (∀ s : State, s.power = false → pwmTick s = s) ∧
  (∀ s : State, s.power = true → pwmTick s = { s with pwmCnt := s.pwmCnt + 1 }) ∧
  (∀ s : State, s.power = true → s.pwmCnt = 255 → (pwmTick s).pwmCnt = 0)

/-- 41_oscillators.md R143: what a service does where it is enabled, that it has no step where it is not, and the example.
That a turn given to a service without a step passes is the model's choice (log 6). -/
def Obligations.ServiceResult : Prop :=
  (∀ (n : ChanId) (s : State), (s.chan n).pend = true →
    (chService n s).lvl n = (!s.lvl n) ∧ (∀ m, m ≠ n → (chService n s).lvl m = s.lvl m) ∧
    (chService n s).vol = s.vol ∧ (chService n s).duty = dutyRead s.cfg (chService n s).mix ∧
    (chService n s).chan n = { s.chan n with pend := false } ∧
    (∀ m, m ≠ n → (chService n s).chan m = s.chan m) ∧
    (chService n s).power = s.power ∧ (chService n s).pwmCnt = s.pwmCnt ∧ (chService n s).err = s.err ∧
    (chService n s).resp = s.resp ∧ sameSurroundings s (chService n s)) ∧
  (∀ (n : ChanId) (s : State), (s.chan n).pend = false → chService n s = s) ∧
  (∀ s : State, s.Inv → ∀ n, (s.chan n).pend = true → (s.chan n).chEn = true ∧ s.power = true) ∧
  (∀ s : State, s.cfg = Config.ex → s.mix = 0b01000#5 → (s.chan .c2).pend = true →
    (chService .c2 s).mix = 0b01100#5 ∧ (chService .c2 s).duty = 40 ∧ ((chService .c2 s).chan .c2).pend = false)

/-- 41_oscillators.md R150: the pin. -/
def Obligations.PinFunction : Prop :=
  ∀ s : State, (s.pwmOut = true ↔ s.power = true ∧ s.pwmCnt.toNat < s.duty.toNat) ∧
    (s.power = false → s.pwmOut = false)

/-- 41_oscillators.md R149: while the duty value holds still from the start of a carrier period, the count is the number
of carrier ticks modulo 256 and the pin is high exactly below the duty value; over 256 carrier ticks it is high for exactly
`DUTY` of them. -/
def Obligations.CarrierDutyFraction : Prop :=
  (∀ (s : State) (k : Nat), s.pwmCnt = 0 →
    (∀ j, j ≤ k → (s.after j).power = true ∧ (s.after j).duty = s.duty) →
    ∀ j, j ≤ k → (s.after j).pwmCnt.toNat = s.pwmTickCount j % 256 ∧
      ((s.after j).pwmOut = true ↔ s.pwmTickCount j % 256 < s.duty.toNat)) ∧
  (∀ (s : State) (ts : List Turn), s.power = true → s.pwmCnt = 0 →
    s.turns = List.replicate 256 .pwmClock ++ ts →
    (List.range 256).countP (fun j => (s.after j).pwmOut) = s.duty.toNat ∧ (s.after 256).pwmCnt = 0)

/-- 41_oscillators.md R141: on a sounding channel left to itself, compare matches come exactly once every `PERIOD` ticks,
counted from where its counter stands; ticks while `POWER = 0` are not counted. No clause performs a `PLAY_NOTE`: that the
first match comes at the `PERIOD`-th tick after one follows with PlayNoteStartsTheChannel, which leaves the counter at 0. -/
def Obligations.CompareMatchEveryPeriod : Prop :=
  (∀ (s : State) (n : ChanId) (k : Nat), s.Inv → s.power = true → (s.chan n).chEn = true →
    (∀ j, j < k → leavesAlone n (s.after j).nextAction) →
    (s.after k).power = true ∧ ((s.after k).chan n).chEn = true ∧
    ((s.after k).chan n).period = (s.chan n).period ∧
    s.matchCount n k = ((s.chan n).cnt.toNat + s.tickCount k) / (s.chan n).period.toNat ∧
    ((s.after k).chan n).cnt.toNat = ((s.chan n).cnt.toNat + s.tickCount k) % (s.chan n).period.toNat) ∧
  (∀ (s : State) (n : ChanId), s.power = false → (tmrTick s).chan n = s.chan n)

/-- 41_oscillators.md R145: under R145's premises the level changes once for each compare match that has been serviced, so
once per `PERIOD` ticks, and a tone's frequency is that of `2 * PERIOD` ticks. -/
def Obligations.SquareWave : Prop :=
  ∀ (s : State) (n : ChanId) (k : Nat), s.Inv → s.power = true → (s.chan n).chEn = true →
    (∀ j, j < k → leavesAlone n (s.after j).nextAction) →
    (∀ j, j < k → (s.after j).nextAction = .tmrTick → ((s.after j).chan n).pend = true →
      ((s.after j).chan n).cnt + 1 ≠ ((s.after j).chan n).period) →
    (s.after k).lvl n = (s.lvl n ^^ decide (s.serviceCount n k % 2 = 1)) ∧
    s.serviceCount n k + ((s.after k).chan n).pend.toNat =
      (s.chan n).pend.toNat + ((s.chan n).cnt.toNat + s.tickCount k) / (s.chan n).period.toNat ∧
    s.cfg.toneFrequency (s.chan n).period * (2 * (s.chan n).period.toNat) = s.cfg.fTimer

/-! ### Order, atomicity and independence -/

/-- 41_oscillators.md R143: services of different channels end in the same state in either order. -/
def Obligations.ServicesCommute : Prop :=
  ∀ (s : State) (n m : ChanId) (ts : List Turn),
    ({ s with turns := .service n :: .service m :: ts } : State).after 2 =
    ({ s with turns := .service m :: .service n :: ts } : State).after 2

/-- 70_reset_and_hazards.md R210, 20_memory.md R81: a service and a volume write, or a service and the silence of another
channel, end in the same state in either order, so neither update is lost. A waiting host's turn is a reading (log 18), and the order
makes no difference to it either. -/
def Obligations.NoUpdateLost : Prop :=
  ∀ (s : State) (n : ChanId) (ts : List Turn) (w : Word) (ws : List Word), s.port = w :: ws →
    (∃ v, decode w = .command (.setVolume v)) ∨
      (∃ m, m ≠ n ∧ decode w = .command (.playNote (fieldOfChan m) noteNone)) →
    ({ s with turns := .host :: .service n :: ts } : State).after 2 =
    ({ s with turns := .service n :: .host :: ts } : State).after 2

/-- 40_commands.md R115: over any run without a reset the volume is that of the last `SET_VOLUME`; over any run without a
reset, a power-off or a silence of n, channel n's level is the one it had, inverted once for each of its services. -/
def Obligations.VolumeAndLevelsInterleave : Prop :=
  (∀ (s : State) (k : Nat), (∀ j, j < k → (s.after j).nextAction ≠ .reset) → (s.after k).vol = s.lastVolume k) ∧
  (∀ (s : State) (n : ChanId) (k : Nat),
    (∀ j, j < k → (s.after j).nextAction.silencesAll = false ∧ (s.after j).nextAction.silences n = false) →
    (s.after k).lvl n = (s.lvl n ^^ decide (s.serviceCount n k % 2 = 1)))

/-- 10_state.md R44: a step that names channel n writes no other channel's registers or level. -/
def Obligations.OtherChannelsUntouched : Prop :=
  ∀ s t (n m : ChanId), step s = .next t → m ≠ n →
    s.nextAction = .service n ∨ (∃ note, s.nextAction = .command (.playNote (fieldOfChan n) note)) →
    t.chan m = s.chan m ∧ t.lvl m = s.lvl m

/-- 41_oscillators.md R146: the whole future of a channel (its registers and its level) does not depend on the other
channels, the volume, the carrier, the errors or the words of the responses: two runs that agree on the channel, the power state
and what the outside does agree on the channel for ever. How many responses there are is part of what the outside does,
because a host that finds none waits (log 18). -/
def Obligations.ChannelIndependence : Prop :=
  ∀ (s s' : State) (n : ChanId) (k : Nat), s'.cfg = s.cfg → s'.power = s.power → s'.port = s.port →
    s'.turns = s.turns → s'.round = s.round → s'.waiting = s.waiting → s'.resp.length = s.resp.length →
    s'.chan n = s.chan n → s'.lvl n = s.lvl n →
    (s'.after k).chan n = (s.after k).chan n ∧ (s'.after k).lvl n = (s.after k).lvl n

/-- 41_oscillators.md R151, 00_scope.md R9: with the premise `DUTY_ADDITIVE`, the duty value depends only on the volume and on how
many levels are high, and so does the pin at one carrier count. -/
def Obligations.AdditiveOutput : Prop :=
  ∀ s s' : State, s.Inv → s'.Inv → s.cfg.DutyAdditive → s'.cfg = s.cfg → s'.vol = s.vol →
    (popcount3 (mixLvl s.mix) ≤ popcount3 (mixLvl s'.mix) → s.duty ≤ s'.duty) ∧
    (popcount3 (mixLvl s.mix) = popcount3 (mixLvl s'.mix) → s'.duty = s.duty ∧
      (s'.power = s.power → s'.pwmCnt = s.pwmCnt → s'.pwmOut = s.pwmOut))

/-! ### Power, errors and responses over runs -/

/-- 60_exceptions.md R187: the stopped state is left by `ENABLE_OUTPUT 1` only. -/
def Obligations.OnlyEnableOutputWakes : Prop :=
  ∀ (s : State) (k : Nat), s.power = false →
    (∀ j, j < k → (s.after j).nextAction ≠ .command (.enableOutput 1)) →
    (s.after k).power = false ∧ (s.after k).pwmOut = false

/-- 60_exceptions.md R187, 40_commands.md R110: from a state where no channel sounds, none sounds and no level is high until a
`PLAY_NOTE` with a note index, whatever else happens, a wake among it. -/
def Obligations.SilentUntilNote : Prop :=
  ∀ (s : State) (k : Nat), s.Inv → (∀ n, (s.chan n).chEn = false) →
    (∀ j, j < k → ∀ n, (s.after j).nextAction.noteStarted s.cfg n = none) →
    ∀ n, ((s.after k).chan n).chEn = false ∧ (s.after k).lvl n = false

/-- 70_reset_and_hazards.md R214: while no legal query is performed, an empty response stream stays empty, and a host that
then turns to take a response waits for ever. That the host reads by a turn of its own, how its wait stands in State, and that
a reset does not end the wait, are the model's choices (log 5, log 18, log 7). -/
def Obligations.WaitingForNoResponse : Prop :=
  ∀ (s : State) (k : Nat), s.resp = [] →
    (∀ j, j < k → (s.after j).nextAction ≠ .command .getVolume ∧ (s.after j).nextAction ≠ .command .getStatus) →
    (s.after k).resp = [] ∧ ((s.after k).nextTurn = .hostTake → ∀ j, k < j → (s.after j).hostHangs)

/-- 60_exceptions.md R175, 10_state.md R47: an error bit stays set over any run without a reset. -/
def Obligations.ErrorBitsSticky : Prop :=
  ∀ (s : State) (e : ErrKind) (k : Nat), s.errBit e = true →
    (∀ j, j < k → (s.after j).nextAction ≠ .reset) → (s.after k).errBit e = true

/-- 70_reset_and_hazards.md R216: the rule's example. In a reachable-looking state (one that meets the invariants) with
`DUTY = 10` and `PWM_CNT = 50`, one step makes `DUTY = 100`, and the pin goes high again in the same carrier period. -/
def Obligations.PinGlitch : Prop :=
  ∃ s t : State, s.Inv ∧ s.duty = 10 ∧ s.pwmCnt = 50 ∧ s.pwmOut = false ∧ step s = .next t ∧
    t.duty = 100 ∧ t.pwmCnt = 50 ∧ t.pwmOut = true ∧
    ∀ c : BitVec 8, 50 ≤ c → c < 100 → ({ t with pwmCnt := c } : State).pwmOut = true

/-! ### Reset and the invariants -/

/-- 70_reset_and_hazards.md R200: reset sets every piece of state to its reset value, from any state and in one step, and the
configuration stays. `State.reset` is the state it gives under the hardware's own configuration. -/
def Obligations.ResetState : Prop :=
  (∀ s, s.nextAction = .reset → ∃ t, step s = .next t ∧ t.power = false ∧ t.mix = 0b00000#5 ∧
    t.duty = s.cfg.dutyEntry 0 ∧ t.pwmCnt = 0 ∧
    (∀ n, t.chan n = { chEn := false, period := 0, cnt := 0, pend := false }) ∧
    t.err = 0 ∧ t.resp = [] ∧ t.cfg = s.cfg) ∧
  State.reset.power = false ∧ State.reset.mix = 0b00000#5 ∧
  State.reset.duty = State.reset.cfg.dutyEntry 0 ∧ State.reset.pwmCnt = 0 ∧
  (∀ n, State.reset.chan n = { chEn := false, period := 0, cnt := 0, pend := false }) ∧
  State.reset.err = 0 ∧ State.reset.resp = []

/-- 10_state.md R50, 00_scope.md R8: the invariants hold at reset, under any well-formed configuration and under the
hardware's own. -/
def Obligations.InvariantsAtReset : Prop :=
  (∀ c : Config, c.wf = true → (State.resetUnder c).Inv) ∧ State.reset.Inv

/-- 10_state.md R50: every step preserves the invariants. -/
def Obligations.EveryStepKeepsTheInvariants : Prop := ∀ s t, s.Inv → step s = .next t → t.Inv

/-- 10_state.md R49, 20_memory.md R83: the configuration never changes. -/
def Obligations.ConfigurationNeverChanges : Prop := ∀ (s : State) (k : Nat), (s.after k).cfg = s.cfg

/-! ### The waiting host -/

/-- 70_reset_and_hazards.md R214, 93_implementation_defined.md item 16: only a reading begins or ends the host's wait, and a
host that waits on an empty response stream waits for ever: whatever the other agents do, reset among it, it still waits, its
words stay unissued, and no word is performed. How the host's wait stands in State, and that a reset neither ends the wait nor
drops the host's words, are the model's choices (log 18, log 7). -/
def Obligations.WaitIsForEver : Prop :=
  (∀ s t, step s = .next t →
    t.waiting = if s.nextAction = .takeResponse then s.resp.isEmpty else s.waiting) ∧
  (∀ (s : State) (k : Nat), s.hostHangs →
    (s.after k).hostHangs ∧ (s.after k).port = s.port ∧ (s.after k).nextAction ≠ .illegal ∧
      ∀ i, (s.after k).nextAction ≠ .command i)
end

