-- ==== Sys2Proof/Laws/Config.lean ====
section
/-! SUPPORT. The hardware's configuration and the example `EX` are well formed, and what well-formedness gives. -/

namespace Sys2Proof

theorem positiveRate_pos (r : Nat × Nat) : 0 < positiveRate r := by
  unfold positiveRate
  positivity

/-- The free configuration is well formed whatever its contents are (00_scope.md R8). -/
theorem Config.hw_wf : Config.hw.wf = true := by
  have hp : ∀ i : Nat, BitVec.ofNat 16 ((Config.notePeriodPred i).val + 1) ≠ 0 := fun i h => by
    have := congrArg BitVec.toNat h
    have hi := (Config.notePeriodPred i).isLt
    simp only [BitVec.toNat_ofNat] at this
    change _ = 0 at this
    omega
  have hn := Config.noteCountPred.isLt
  have ht : 0 < Config.hw.fTimer := positiveRate_pos _
  have hf : 0 < Config.hw.fPwm := positiveRate_pos _
  simp only [Config.wf, Config.tablesWf, Config.noteCountInRange, Config.ratesPositive, Config.noteCount,
    Bool.and_eq_true, decide_eq_true_eq, List.all_eq_true]
  refine ⟨⟨⟨?_, by simp [Config.hw]⟩, ?_, ?_⟩, ht, hf⟩
  · simp only [Config.hw, List.mem_map, List.mem_range, forall_exists_index, and_imp]
    rintro p i - rfl
    exact hp i
  · simp [Config.hw]
  · simp only [Config.hw, List.length_map, List.length_range]
    exact decide_eq_true hn

/-- What a well-formed configuration gives about the note table (00_scope.md R7, R8). -/
theorem Config.wf_note {c : Config} (h : c.wf = true) :
    1 ≤ c.noteCount ∧ c.noteCount ≤ 255 ∧ ∀ p ∈ c.notePeriod, p ≠ 0 := by
  simp only [Config.wf, Config.tablesWf, Config.noteCountInRange, Bool.and_eq_true, decide_eq_true_eq,
    List.all_eq_true] at h
  exact ⟨h.1.2.1, h.1.2.2, h.1.1.1⟩

/-- The duty table of a well-formed configuration has an entry for every value of `MIX` (20_memory.md R71). -/
theorem Config.wf_duty {c : Config} (h : c.wf = true) : c.dutyTable.length = 32 := by
  simp only [Config.wf, Config.tablesWf, Bool.and_eq_true, decide_eq_true_eq] at h
  exact h.1.1.2

/-- A period read inside a well-formed table is never 0 (20_memory.md R70). -/
theorem Config.wf_period_ne_zero {c : Config} (h : c.wf = true) {i : Nat} (hi : i < c.noteCount) :
    c.notePeriod.getD i 0 ≠ 0 := by
  have hi' : i < c.notePeriod.length := hi
  rw [List.getD_eq_getElem _ _ hi']
  exact (Config.wf_note h).2.2 _ (List.getElem_mem hi')

end Sys2Proof
end

