-- ==== Sys2Proof/Laws/Mix.lean ====
section
/-! SUPPORT. The two fields of `MIX` do not overlap (00_scope.md R14), and what the one-bit operations on the level mask
do to each bit. -/

namespace Sys2Proof.Machine

@[simp] theorem mixVol_mixOf (v : BitVec 2) (l : BitVec 3) : mixVol (mixOf v l) = v := by
  revert v l; decide

@[simp] theorem mixLvl_mixOf (v : BitVec 2) (l : BitVec 3) : mixLvl (mixOf v l) = l := by
  revert v l; decide

/-- `MIX` is its two fields and nothing else (10_state.md R34). -/
@[simp] theorem mixOf_fields (m : BitVec 5) : mixOf (mixVol m) (mixLvl m) = m := by
  revert m; decide

theorem lvlClear_bit (n m : ChanId) (l : BitVec 3) :
    (lvlClear n l).getLsbD m.idx = if m = n then false else l.getLsbD m.idx := by
  cases n <;> cases m <;> revert l <;> decide

theorem lvlToggle_bit (n m : ChanId) (l : BitVec 3) :
    (lvlToggle n l).getLsbD m.idx = if m = n then !l.getLsbD m.idx else l.getLsbD m.idx := by
  cases n <;> cases m <;> revert l <;> decide

@[simp] theorem zero_lvl_bit (n : ChanId) : (0#3).getLsbD n.idx = false := by
  cases n <;> rfl

/-- The three bits of a level mask determine it. -/
theorem lvl_ext {l l' : BitVec 3} (h : ∀ n : ChanId, l.getLsbD n.idx = l'.getLsbD n.idx) : l = l' := by
  have h0 := h .c0
  have h1 := h .c1
  have h2 := h .c2
  clear h
  simp only [ChanId.idx] at h0 h1 h2
  revert l l'
  decide

/-- Toggles of different channels commute (41_oscillators.md R143). -/
theorem lvlToggle_comm (n m : ChanId) (l : BitVec 3) :
    lvlToggle n (lvlToggle m l) = lvlToggle m (lvlToggle n l) := by
  cases n <;> cases m <;> revert l <;> decide

/-- Setting an error bit leaves the others as they are (10_state.md R47). -/
theorem errWith_bit (k k' : ErrKind) (e : BitVec 4) :
    (errWith k e).getLsbD k'.code = if k' = k then true else e.getLsbD k'.code := by
  cases k <;> cases k' <;> revert e <;> decide

/-- Bit n of a channel mask is channel n's bit (10_state.md R45). -/
@[simp] theorem chanMask_bit (f : Channel → Bool) (s : State) (n : ChanId) :
    (chanMask f s).getLsbD n.idx = f (s.chan n) := by
  have h : ∀ (a b c : Bool) (n : ChanId),
      (BitVec.ofBool a ++ BitVec.ofBool b ++ BitVec.ofBool c : BitVec 3).getLsbD n.idx =
        match n with
        | .c0 => c
        | .c1 => b
        | .c2 => a := by
    intro a b c n
    cases n <;> revert a b c <;> decide
  rw [chanMask, h]
  cases n <;> rfl

@[simp] theorem chanOfField_fieldOfChan (n : ChanId) : chanOfField (fieldOfChan n) = some n := by
  cases n <;> rfl

theorem chanOfField_eq_some {ch : BitVec 2} {n : ChanId} : chanOfField ch = some n ↔ ch = fieldOfChan n := by
  cases n <;> revert ch <;> decide

theorem chanOfField_eq_none {ch : BitVec 2} : chanOfField ch = none ↔ ch = 3 := by
  revert ch; decide

theorem noteOperand_none {c : Config} : noteOperand c noteNone = .none := by
  simp [noteOperand]

theorem noteOperand_index {c : Config} {note : BitVec 8} (h : note ≠ noteNone) (h' : note.toNat < c.noteCount) :
    noteOperand c note = .index note.toNat := by
  simp [noteOperand, h, h']

theorem noteOperand_invalid {c : Config} {note : BitVec 8} (h : note ≠ noteNone) (h' : c.noteCount ≤ note.toNat) :
    noteOperand c note = .invalid := by
  simp [noteOperand, h, Nat.not_lt.mpr h']

end Sys2Proof.Machine
end

