-- ==== Sys2Proof/Laws/State.lean ====
section
/-! SUPPORT. One lemma per field and update of the shared operations, so that no proof unfolds a record update. -/

namespace Sys2Proof.Machine

/-! ### `setMix` -/

@[simp] theorem State.setMix_cfg (s : State) (m : BitVec 5) : (s.setMix m).cfg = s.cfg := rfl
@[simp] theorem State.setMix_power (s : State) (m : BitVec 5) : (s.setMix m).power = s.power := rfl
@[simp] theorem State.setMix_mix (s : State) (m : BitVec 5) : (s.setMix m).mix = m := rfl
@[simp] theorem State.setMix_duty (s : State) (m : BitVec 5) : (s.setMix m).duty = dutyRead s.cfg m := rfl
@[simp] theorem State.setMix_pwmCnt (s : State) (m : BitVec 5) : (s.setMix m).pwmCnt = s.pwmCnt := rfl
@[simp] theorem State.setMix_err (s : State) (m : BitVec 5) : (s.setMix m).err = s.err := rfl
@[simp] theorem State.setMix_resp (s : State) (m : BitVec 5) : (s.setMix m).resp = s.resp := rfl
@[simp] theorem State.setMix_port (s : State) (m : BitVec 5) : (s.setMix m).port = s.port := rfl
@[simp] theorem State.setMix_turns (s : State) (m : BitVec 5) : (s.setMix m).turns = s.turns := rfl
@[simp] theorem State.setMix_waiting (s : State) (m : BitVec 5) : (s.setMix m).waiting = s.waiting := rfl
@[simp] theorem State.setMix_round (s : State) (m : BitVec 5) : (s.setMix m).round = s.round := rfl
@[simp] theorem State.setMix_chan (s : State) (m : BitVec 5) (n : ChanId) : (s.setMix m).chan n = s.chan n := by
  cases n <;> rfl

/-! ### `setLvl` -/

@[simp] theorem State.setLvl_cfg (s : State) (l : BitVec 3) : (s.setLvl l).cfg = s.cfg := rfl
@[simp] theorem State.setLvl_power (s : State) (l : BitVec 3) : (s.setLvl l).power = s.power := rfl
@[simp] theorem State.setLvl_mix (s : State) (l : BitVec 3) : (s.setLvl l).mix = mixOf (mixVol s.mix) l := rfl
@[simp] theorem State.setLvl_duty (s : State) (l : BitVec 3) : (s.setLvl l).duty = dutyRead s.cfg (mixOf (mixVol s.mix) l) := rfl
@[simp] theorem State.setLvl_pwmCnt (s : State) (l : BitVec 3) : (s.setLvl l).pwmCnt = s.pwmCnt := rfl
@[simp] theorem State.setLvl_err (s : State) (l : BitVec 3) : (s.setLvl l).err = s.err := rfl
@[simp] theorem State.setLvl_resp (s : State) (l : BitVec 3) : (s.setLvl l).resp = s.resp := rfl
@[simp] theorem State.setLvl_port (s : State) (l : BitVec 3) : (s.setLvl l).port = s.port := rfl
@[simp] theorem State.setLvl_turns (s : State) (l : BitVec 3) : (s.setLvl l).turns = s.turns := rfl
@[simp] theorem State.setLvl_waiting (s : State) (l : BitVec 3) : (s.setLvl l).waiting = s.waiting := rfl
@[simp] theorem State.setLvl_round (s : State) (l : BitVec 3) : (s.setLvl l).round = s.round := rfl
@[simp] theorem State.setLvl_chan (s : State) (l : BitVec 3) (n : ChanId) : (s.setLvl l).chan n = s.chan n := by
  cases n <;> rfl

/-! ### `setVol` -/

@[simp] theorem State.setVol_cfg (s : State) (v : BitVec 2) : (s.setVol v).cfg = s.cfg := rfl
@[simp] theorem State.setVol_power (s : State) (v : BitVec 2) : (s.setVol v).power = s.power := rfl
@[simp] theorem State.setVol_mix (s : State) (v : BitVec 2) : (s.setVol v).mix = mixOf v (mixLvl s.mix) := rfl
@[simp] theorem State.setVol_duty (s : State) (v : BitVec 2) : (s.setVol v).duty = dutyRead s.cfg (mixOf v (mixLvl s.mix)) := rfl
@[simp] theorem State.setVol_pwmCnt (s : State) (v : BitVec 2) : (s.setVol v).pwmCnt = s.pwmCnt := rfl
@[simp] theorem State.setVol_err (s : State) (v : BitVec 2) : (s.setVol v).err = s.err := rfl
@[simp] theorem State.setVol_resp (s : State) (v : BitVec 2) : (s.setVol v).resp = s.resp := rfl
@[simp] theorem State.setVol_port (s : State) (v : BitVec 2) : (s.setVol v).port = s.port := rfl
@[simp] theorem State.setVol_turns (s : State) (v : BitVec 2) : (s.setVol v).turns = s.turns := rfl
@[simp] theorem State.setVol_waiting (s : State) (v : BitVec 2) : (s.setVol v).waiting = s.waiting := rfl
@[simp] theorem State.setVol_round (s : State) (v : BitVec 2) : (s.setVol v).round = s.round := rfl
@[simp] theorem State.setVol_chan (s : State) (v : BitVec 2) (n : ChanId) : (s.setVol v).chan n = s.chan n := by
  cases n <;> rfl

/-! ### `mapChans` -/

@[simp] theorem State.mapChans_cfg (s : State) (f : Channel → Channel) : (s.mapChans f).cfg = s.cfg := rfl
@[simp] theorem State.mapChans_power (s : State) (f : Channel → Channel) : (s.mapChans f).power = s.power := rfl
@[simp] theorem State.mapChans_mix (s : State) (f : Channel → Channel) : (s.mapChans f).mix = s.mix := rfl
@[simp] theorem State.mapChans_duty (s : State) (f : Channel → Channel) : (s.mapChans f).duty = s.duty := rfl
@[simp] theorem State.mapChans_pwmCnt (s : State) (f : Channel → Channel) : (s.mapChans f).pwmCnt = s.pwmCnt := rfl
@[simp] theorem State.mapChans_err (s : State) (f : Channel → Channel) : (s.mapChans f).err = s.err := rfl
@[simp] theorem State.mapChans_resp (s : State) (f : Channel → Channel) : (s.mapChans f).resp = s.resp := rfl
@[simp] theorem State.mapChans_port (s : State) (f : Channel → Channel) : (s.mapChans f).port = s.port := rfl
@[simp] theorem State.mapChans_turns (s : State) (f : Channel → Channel) : (s.mapChans f).turns = s.turns := rfl
@[simp] theorem State.mapChans_waiting (s : State) (f : Channel → Channel) : (s.mapChans f).waiting = s.waiting := rfl
@[simp] theorem State.mapChans_round (s : State) (f : Channel → Channel) : (s.mapChans f).round = s.round := rfl
@[simp] theorem State.mapChans_chan (s : State) (f : Channel → Channel) (n : ChanId) : (s.mapChans f).chan n = f (s.chan n) := by
  cases n <;> rfl

/-! ### `respond` -/

@[simp] theorem State.respond_cfg (s : State) (w : Word) : (s.respond w).cfg = s.cfg := rfl
@[simp] theorem State.respond_power (s : State) (w : Word) : (s.respond w).power = s.power := rfl
@[simp] theorem State.respond_mix (s : State) (w : Word) : (s.respond w).mix = s.mix := rfl
@[simp] theorem State.respond_duty (s : State) (w : Word) : (s.respond w).duty = s.duty := rfl
@[simp] theorem State.respond_pwmCnt (s : State) (w : Word) : (s.respond w).pwmCnt = s.pwmCnt := rfl
@[simp] theorem State.respond_err (s : State) (w : Word) : (s.respond w).err = s.err := rfl
@[simp] theorem State.respond_resp (s : State) (w : Word) : (s.respond w).resp = s.resp ++ [w] := rfl
@[simp] theorem State.respond_port (s : State) (w : Word) : (s.respond w).port = s.port := rfl
@[simp] theorem State.respond_turns (s : State) (w : Word) : (s.respond w).turns = s.turns := rfl
@[simp] theorem State.respond_waiting (s : State) (w : Word) : (s.respond w).waiting = s.waiting := rfl
@[simp] theorem State.respond_round (s : State) (w : Word) : (s.respond w).round = s.round := rfl
@[simp] theorem State.respond_chan (s : State) (w : Word) (n : ChanId) : (s.respond w).chan n = s.chan n := by
  cases n <;> rfl

/-! ### `setErr` -/

@[simp] theorem State.setErr_cfg (s : State) (k : ErrKind) : (s.setErr k).cfg = s.cfg := rfl
@[simp] theorem State.setErr_power (s : State) (k : ErrKind) : (s.setErr k).power = s.power := rfl
@[simp] theorem State.setErr_mix (s : State) (k : ErrKind) : (s.setErr k).mix = s.mix := rfl
@[simp] theorem State.setErr_duty (s : State) (k : ErrKind) : (s.setErr k).duty = s.duty := rfl
@[simp] theorem State.setErr_pwmCnt (s : State) (k : ErrKind) : (s.setErr k).pwmCnt = s.pwmCnt := rfl
@[simp] theorem State.setErr_err (s : State) (k : ErrKind) : (s.setErr k).err = errWith k s.err := rfl
@[simp] theorem State.setErr_resp (s : State) (k : ErrKind) : (s.setErr k).resp = s.resp := rfl
@[simp] theorem State.setErr_port (s : State) (k : ErrKind) : (s.setErr k).port = s.port := rfl
@[simp] theorem State.setErr_turns (s : State) (k : ErrKind) : (s.setErr k).turns = s.turns := rfl
@[simp] theorem State.setErr_waiting (s : State) (k : ErrKind) : (s.setErr k).waiting = s.waiting := rfl
@[simp] theorem State.setErr_round (s : State) (k : ErrKind) : (s.setErr k).round = s.round := rfl
@[simp] theorem State.setErr_chan (s : State) (k : ErrKind) (n : ChanId) : (s.setErr k).chan n = s.chan n := by
  cases n <;> rfl

/-! ### `setChan` -/

@[simp] theorem State.setChan_cfg (s : State) (n : ChanId) (c : Channel) : (s.setChan n c).cfg = s.cfg := by
  cases n <;> rfl
@[simp] theorem State.setChan_power (s : State) (n : ChanId) (c : Channel) : (s.setChan n c).power = s.power := by
  cases n <;> rfl
@[simp] theorem State.setChan_mix (s : State) (n : ChanId) (c : Channel) : (s.setChan n c).mix = s.mix := by
  cases n <;> rfl
@[simp] theorem State.setChan_duty (s : State) (n : ChanId) (c : Channel) : (s.setChan n c).duty = s.duty := by
  cases n <;> rfl
@[simp] theorem State.setChan_pwmCnt (s : State) (n : ChanId) (c : Channel) : (s.setChan n c).pwmCnt = s.pwmCnt := by
  cases n <;> rfl
@[simp] theorem State.setChan_err (s : State) (n : ChanId) (c : Channel) : (s.setChan n c).err = s.err := by
  cases n <;> rfl
@[simp] theorem State.setChan_resp (s : State) (n : ChanId) (c : Channel) : (s.setChan n c).resp = s.resp := by
  cases n <;> rfl
@[simp] theorem State.setChan_port (s : State) (n : ChanId) (c : Channel) : (s.setChan n c).port = s.port := by
  cases n <;> rfl
@[simp] theorem State.setChan_turns (s : State) (n : ChanId) (c : Channel) : (s.setChan n c).turns = s.turns := by
  cases n <;> rfl
@[simp] theorem State.setChan_waiting (s : State) (n : ChanId) (c : Channel) : (s.setChan n c).waiting = s.waiting := by
  cases n <;> rfl
@[simp] theorem State.setChan_round (s : State) (n : ChanId) (c : Channel) : (s.setChan n c).round = s.round := by
  cases n <;> rfl

theorem State.setChan_chan (s : State) (n m : ChanId) (c : Channel) :
    (s.setChan n c).chan m = if m = n then c else s.chan m := by
  cases n <;> cases m <;> rfl

@[simp] theorem State.setChan_chan_same (s : State) (n : ChanId) (c : Channel) :
    (s.setChan n c).chan n = c := by
  simp [State.setChan_chan]

theorem State.setChan_chan_other (s : State) {n m : ChanId} (c : Channel) (h : m ≠ n) :
    (s.setChan n c).chan m = s.chan m := by
  simp [State.setChan_chan, h]

/-! ### Plain field updates -/

@[simp] theorem State.chan_with_power (s : State) (x : Bool) (n : ChanId) :
    ({ s with power := x } : State).chan n = s.chan n := by
  cases n <;> rfl
@[simp] theorem State.chan_with_pwmCnt (s : State) (x : BitVec 8) (n : ChanId) :
    ({ s with pwmCnt := x } : State).chan n = s.chan n := by
  cases n <;> rfl
@[simp] theorem State.chan_with_err (s : State) (x : BitVec 4) (n : ChanId) :
    ({ s with err := x } : State).chan n = s.chan n := by
  cases n <;> rfl
@[simp] theorem State.chan_with_resp (s : State) (x : List Word) (n : ChanId) :
    ({ s with resp := x } : State).chan n = s.chan n := by
  cases n <;> rfl
@[simp] theorem State.chan_with_port (s : State) (x : List Word) (n : ChanId) :
    ({ s with port := x } : State).chan n = s.chan n := by
  cases n <;> rfl
@[simp] theorem State.chan_with_turns (s : State) (x : List Turn) (n : ChanId) :
    ({ s with turns := x } : State).chan n = s.chan n := by
  cases n <;> rfl

end Sys2Proof.Machine
end

