-- ==== Sys2Proof/Laws/Ops.lean ====
section
/-! SUPPORT. What each shared operation does to every field of the state, and the cases of `PLAY_NOTE` and of one channel's
timer tick. -/

namespace Sys2Proof.Machine

/-! ### `startNote` -/

@[simp] theorem startNote_cfg (n : ChanId) (i : Nat) (s : State) : (startNote n i s).cfg = s.cfg := by
  simp [startNote]
@[simp] theorem startNote_power (n : ChanId) (i : Nat) (s : State) : (startNote n i s).power = s.power := by
  simp [startNote]
@[simp] theorem startNote_mix (n : ChanId) (i : Nat) (s : State) : (startNote n i s).mix = s.mix := by
  simp [startNote]
@[simp] theorem startNote_duty (n : ChanId) (i : Nat) (s : State) : (startNote n i s).duty = s.duty := by
  simp [startNote]
@[simp] theorem startNote_pwmCnt (n : ChanId) (i : Nat) (s : State) : (startNote n i s).pwmCnt = s.pwmCnt := by
  simp [startNote]
@[simp] theorem startNote_err (n : ChanId) (i : Nat) (s : State) : (startNote n i s).err = s.err := by
  simp [startNote]
@[simp] theorem startNote_resp (n : ChanId) (i : Nat) (s : State) : (startNote n i s).resp = s.resp := by
  simp [startNote]
@[simp] theorem startNote_port (n : ChanId) (i : Nat) (s : State) : (startNote n i s).port = s.port := by
  simp [startNote]
@[simp] theorem startNote_turns (n : ChanId) (i : Nat) (s : State) : (startNote n i s).turns = s.turns := by
  simp [startNote]
@[simp] theorem startNote_waiting (n : ChanId) (i : Nat) (s : State) : (startNote n i s).waiting = s.waiting := by
  simp [startNote]
@[simp] theorem startNote_round (n : ChanId) (i : Nat) (s : State) : (startNote n i s).round = s.round := by
  simp [startNote]
theorem startNote_chan (n : ChanId) (i : Nat) (s : State) (m : ChanId) :
    (startNote n i s).chan m = if m = n then Channel.start (noteRead s.cfg i) else s.chan m := by
  simp [startNote, State.setChan_chan]

/-! ### `silenceChan` -/

@[simp] theorem silenceChan_cfg (n : ChanId) (s : State) : (silenceChan n s).cfg = s.cfg := by
  simp [silenceChan]
@[simp] theorem silenceChan_power (n : ChanId) (s : State) : (silenceChan n s).power = s.power := by
  simp [silenceChan]
@[simp] theorem silenceChan_mix (n : ChanId) (s : State) :
    (silenceChan n s).mix = mixOf (mixVol s.mix) (lvlClear n (mixLvl s.mix)) := by
  simp [silenceChan]
@[simp] theorem silenceChan_duty (n : ChanId) (s : State) :
    (silenceChan n s).duty = dutyRead s.cfg (mixOf (mixVol s.mix) (lvlClear n (mixLvl s.mix))) := by
  simp [silenceChan]
@[simp] theorem silenceChan_pwmCnt (n : ChanId) (s : State) : (silenceChan n s).pwmCnt = s.pwmCnt := by
  simp [silenceChan]
@[simp] theorem silenceChan_err (n : ChanId) (s : State) : (silenceChan n s).err = s.err := by
  simp [silenceChan]
@[simp] theorem silenceChan_resp (n : ChanId) (s : State) : (silenceChan n s).resp = s.resp := by
  simp [silenceChan]
@[simp] theorem silenceChan_port (n : ChanId) (s : State) : (silenceChan n s).port = s.port := by
  simp [silenceChan]
@[simp] theorem silenceChan_turns (n : ChanId) (s : State) : (silenceChan n s).turns = s.turns := by
  simp [silenceChan]
@[simp] theorem silenceChan_waiting (n : ChanId) (s : State) : (silenceChan n s).waiting = s.waiting := by
  simp [silenceChan]
@[simp] theorem silenceChan_round (n : ChanId) (s : State) : (silenceChan n s).round = s.round := by
  simp [silenceChan]
theorem silenceChan_chan (n : ChanId) (s : State) (m : ChanId) :
    (silenceChan n s).chan m = if m = n then (s.chan m).silence else s.chan m := by
  by_cases h : m = n <;> simp [silenceChan, State.setChan_chan, h]

/-! ### `powerOff` -/

@[simp] theorem powerOff_cfg (s : State) : (powerOff s).cfg = s.cfg := rfl
@[simp] theorem powerOff_power (s : State) : (powerOff s).power = false := rfl
@[simp] theorem powerOff_mix (s : State) : (powerOff s).mix = mixOf (mixVol s.mix) 0b000#3 := rfl
@[simp] theorem powerOff_duty (s : State) : (powerOff s).duty = dutyRead s.cfg (mixOf (mixVol s.mix) 0b000#3) := rfl
@[simp] theorem powerOff_pwmCnt (s : State) : (powerOff s).pwmCnt = 0 := rfl
@[simp] theorem powerOff_err (s : State) : (powerOff s).err = s.err := rfl
@[simp] theorem powerOff_resp (s : State) : (powerOff s).resp = s.resp := rfl
@[simp] theorem powerOff_port (s : State) : (powerOff s).port = s.port := rfl
@[simp] theorem powerOff_turns (s : State) : (powerOff s).turns = s.turns := rfl
@[simp] theorem powerOff_waiting (s : State) : (powerOff s).waiting = s.waiting := rfl
@[simp] theorem powerOff_round (s : State) : (powerOff s).round = s.round := rfl
theorem powerOff_chan (s : State) (m : ChanId) :
    (powerOff s).chan m = (s.chan m).silence := by
  cases m <;> rfl

/-! ### `powerOn` -/

@[simp] theorem powerOn_cfg (s : State) : (powerOn s).cfg = s.cfg := rfl
@[simp] theorem powerOn_power (s : State) : (powerOn s).power = true := rfl
@[simp] theorem powerOn_mix (s : State) : (powerOn s).mix = s.mix := rfl
@[simp] theorem powerOn_duty (s : State) : (powerOn s).duty = s.duty := rfl
@[simp] theorem powerOn_pwmCnt (s : State) : (powerOn s).pwmCnt = s.pwmCnt := rfl
@[simp] theorem powerOn_err (s : State) : (powerOn s).err = s.err := rfl
@[simp] theorem powerOn_resp (s : State) : (powerOn s).resp = s.resp := rfl
@[simp] theorem powerOn_port (s : State) : (powerOn s).port = s.port := rfl
@[simp] theorem powerOn_turns (s : State) : (powerOn s).turns = s.turns := rfl
@[simp] theorem powerOn_waiting (s : State) : (powerOn s).waiting = s.waiting := rfl
@[simp] theorem powerOn_round (s : State) : (powerOn s).round = s.round := rfl
theorem powerOn_chan (s : State) (m : ChanId) :
    (powerOn s).chan m = s.chan m := by
  cases m <;> rfl

/-! ### `tmrTick` -/

@[simp] theorem tmrTick_cfg (s : State) : (tmrTick s).cfg = s.cfg := by
  by_cases h : s.power <;> by_cases h' : s.anyOverrun <;> simp [tmrTick, h, h']
@[simp] theorem tmrTick_power (s : State) : (tmrTick s).power = s.power := by
  by_cases h : s.power <;> by_cases h' : s.anyOverrun <;> simp [tmrTick, h, h']
@[simp] theorem tmrTick_mix (s : State) : (tmrTick s).mix = s.mix := by
  by_cases h : s.power <;> by_cases h' : s.anyOverrun <;> simp [tmrTick, h, h']
@[simp] theorem tmrTick_duty (s : State) : (tmrTick s).duty = s.duty := by
  by_cases h : s.power <;> by_cases h' : s.anyOverrun <;> simp [tmrTick, h, h']
@[simp] theorem tmrTick_pwmCnt (s : State) : (tmrTick s).pwmCnt = s.pwmCnt := by
  by_cases h : s.power <;> by_cases h' : s.anyOverrun <;> simp [tmrTick, h, h']
@[simp] theorem tmrTick_err (s : State) :
    (tmrTick s).err = if s.power && s.anyOverrun then errWith .ovr s.err else s.err := by
  by_cases h : s.power <;> by_cases h' : s.anyOverrun <;> simp [tmrTick, h, h']
@[simp] theorem tmrTick_resp (s : State) : (tmrTick s).resp = s.resp := by
  by_cases h : s.power <;> by_cases h' : s.anyOverrun <;> simp [tmrTick, h, h']
@[simp] theorem tmrTick_port (s : State) : (tmrTick s).port = s.port := by
  by_cases h : s.power <;> by_cases h' : s.anyOverrun <;> simp [tmrTick, h, h']
@[simp] theorem tmrTick_turns (s : State) : (tmrTick s).turns = s.turns := by
  by_cases h : s.power <;> by_cases h' : s.anyOverrun <;> simp [tmrTick, h, h']
@[simp] theorem tmrTick_waiting (s : State) : (tmrTick s).waiting = s.waiting := by
  by_cases h : s.power <;> by_cases h' : s.anyOverrun <;> simp [tmrTick, h, h']
@[simp] theorem tmrTick_round (s : State) : (tmrTick s).round = s.round := by
  by_cases h : s.power <;> by_cases h' : s.anyOverrun <;> simp [tmrTick, h, h']
theorem tmrTick_chan (s : State) (m : ChanId) :
    (tmrTick s).chan m = if s.power then (s.chan m).tick else s.chan m := by
  by_cases h : s.power <;> by_cases h' : s.anyOverrun <;> simp [tmrTick, h, h']

/-! ### `pwmTick` -/

@[simp] theorem pwmTick_cfg (s : State) : (pwmTick s).cfg = s.cfg := by
  by_cases h : s.power <;> simp [pwmTick, h]
@[simp] theorem pwmTick_power (s : State) : (pwmTick s).power = s.power := by
  by_cases h : s.power <;> simp [pwmTick, h]
@[simp] theorem pwmTick_mix (s : State) : (pwmTick s).mix = s.mix := by
  by_cases h : s.power <;> simp [pwmTick, h]
@[simp] theorem pwmTick_duty (s : State) : (pwmTick s).duty = s.duty := by
  by_cases h : s.power <;> simp [pwmTick, h]
@[simp] theorem pwmTick_pwmCnt (s : State) :
    (pwmTick s).pwmCnt = if s.power then (if s.pwmCnt = pwmTop then 0 else s.pwmCnt + 1) else s.pwmCnt := by
  by_cases h : s.power <;> simp [pwmTick, h]
@[simp] theorem pwmTick_err (s : State) : (pwmTick s).err = s.err := by
  by_cases h : s.power <;> simp [pwmTick, h]
@[simp] theorem pwmTick_resp (s : State) : (pwmTick s).resp = s.resp := by
  by_cases h : s.power <;> simp [pwmTick, h]
@[simp] theorem pwmTick_port (s : State) : (pwmTick s).port = s.port := by
  by_cases h : s.power <;> simp [pwmTick, h]
@[simp] theorem pwmTick_turns (s : State) : (pwmTick s).turns = s.turns := by
  by_cases h : s.power <;> simp [pwmTick, h]
@[simp] theorem pwmTick_waiting (s : State) : (pwmTick s).waiting = s.waiting := by
  by_cases h : s.power <;> simp [pwmTick, h]
@[simp] theorem pwmTick_round (s : State) : (pwmTick s).round = s.round := by
  by_cases h : s.power <;> simp [pwmTick, h]
theorem pwmTick_chan (s : State) (m : ChanId) :
    (pwmTick s).chan m = s.chan m := by
  by_cases h : s.power <;> cases m <;> simp [pwmTick, h, State.chan]

/-! ### `serviceBody` -/

@[simp] theorem serviceBody_cfg (n : ChanId) (s : State) : (serviceBody n s).cfg = s.cfg := by
  simp [serviceBody]
@[simp] theorem serviceBody_power (n : ChanId) (s : State) : (serviceBody n s).power = s.power := by
  simp [serviceBody]
@[simp] theorem serviceBody_mix (n : ChanId) (s : State) :
    (serviceBody n s).mix = mixOf (mixVol s.mix) (lvlToggle n (mixLvl s.mix)) := by
  simp [serviceBody]
@[simp] theorem serviceBody_duty (n : ChanId) (s : State) :
    (serviceBody n s).duty = dutyRead s.cfg (mixOf (mixVol s.mix) (lvlToggle n (mixLvl s.mix))) := by
  simp [serviceBody]
@[simp] theorem serviceBody_pwmCnt (n : ChanId) (s : State) : (serviceBody n s).pwmCnt = s.pwmCnt := by
  simp [serviceBody]
@[simp] theorem serviceBody_err (n : ChanId) (s : State) : (serviceBody n s).err = s.err := by
  simp [serviceBody]
@[simp] theorem serviceBody_resp (n : ChanId) (s : State) : (serviceBody n s).resp = s.resp := by
  simp [serviceBody]
@[simp] theorem serviceBody_port (n : ChanId) (s : State) : (serviceBody n s).port = s.port := by
  simp [serviceBody]
@[simp] theorem serviceBody_turns (n : ChanId) (s : State) : (serviceBody n s).turns = s.turns := by
  simp [serviceBody]
@[simp] theorem serviceBody_waiting (n : ChanId) (s : State) : (serviceBody n s).waiting = s.waiting := by
  simp [serviceBody]
@[simp] theorem serviceBody_round (n : ChanId) (s : State) : (serviceBody n s).round = s.round := by
  simp [serviceBody]
theorem serviceBody_chan (n : ChanId) (s : State) (m : ChanId) :
    (serviceBody n s).chan m = if m = n then { s.chan m with pend := false } else s.chan m := by
  by_cases h : m = n <;> simp [serviceBody, State.setChan_chan, h]

/-! ### `resetEvent` -/

@[simp] theorem resetEvent_cfg (s : State) : (resetEvent s).cfg = s.cfg := rfl
@[simp] theorem resetEvent_power (s : State) : (resetEvent s).power = false := rfl
@[simp] theorem resetEvent_mix (s : State) : (resetEvent s).mix = 0 := rfl
@[simp] theorem resetEvent_duty (s : State) : (resetEvent s).duty = dutyRead s.cfg 0 := rfl
@[simp] theorem resetEvent_pwmCnt (s : State) : (resetEvent s).pwmCnt = 0 := rfl
@[simp] theorem resetEvent_err (s : State) : (resetEvent s).err = 0 := rfl
@[simp] theorem resetEvent_resp (s : State) : (resetEvent s).resp = [] := rfl
@[simp] theorem resetEvent_port (s : State) : (resetEvent s).port = s.port := rfl
@[simp] theorem resetEvent_turns (s : State) : (resetEvent s).turns = s.turns := rfl
@[simp] theorem resetEvent_waiting (s : State) : (resetEvent s).waiting = s.waiting := rfl
@[simp] theorem resetEvent_round (s : State) : (resetEvent s).round = s.round := rfl
theorem resetEvent_chan (s : State) (m : ChanId) :
    (resetEvent s).chan m = Channel.reset := by
  cases m <;> rfl

/-! ### `takeResponse` -/

@[simp] theorem takeResponse_cfg (s : State) : (takeResponse s).cfg = s.cfg := rfl
@[simp] theorem takeResponse_power (s : State) : (takeResponse s).power = s.power := rfl
@[simp] theorem takeResponse_mix (s : State) : (takeResponse s).mix = s.mix := rfl
@[simp] theorem takeResponse_duty (s : State) : (takeResponse s).duty = s.duty := rfl
@[simp] theorem takeResponse_pwmCnt (s : State) : (takeResponse s).pwmCnt = s.pwmCnt := rfl
@[simp] theorem takeResponse_err (s : State) : (takeResponse s).err = s.err := rfl
@[simp] theorem takeResponse_resp (s : State) : (takeResponse s).resp = s.resp.tail := rfl
@[simp] theorem takeResponse_port (s : State) : (takeResponse s).port = s.port := rfl
@[simp] theorem takeResponse_turns (s : State) : (takeResponse s).turns = s.turns := rfl
@[simp] theorem takeResponse_waiting (s : State) : (takeResponse s).waiting = s.resp.isEmpty := rfl
@[simp] theorem takeResponse_round (s : State) : (takeResponse s).round = s.round := rfl
theorem takeResponse_chan (s : State) (m : ChanId) :
    (takeResponse s).chan m = s.chan m := by
  cases m <;> rfl

/-! ### One channel's tick, and the cases of the larger operations -/

/-- R140 for one channel: a disabled channel stays, a match clears the count and is pending, any other tick counts. -/
theorem Channel.tick_cases (c : Channel) :
    (c.chEn = false ∧ c.tick = c) ∨
    (c.chEn = true ∧ c.cnt + 1 = c.period ∧ c.tick = { c with cnt := 0, pend := true }) ∨
    (c.chEn = true ∧ c.cnt + 1 ≠ c.period ∧ c.tick = { c with cnt := c.cnt + 1 }) := by
  unfold Channel.tick
  by_cases h : c.chEn = true
  · by_cases h' : c.cnt + 1 = c.period
    · exact .inr (.inl ⟨h, h', by rw [if_pos h, if_pos h']⟩)
    · exact .inr (.inr ⟨h, h', by rw [if_pos h, if_neg h']⟩)
  · exact .inl ⟨by simpa using h, by rw [if_neg h]⟩

@[simp] theorem Channel.tick_chEn (c : Channel) : c.tick.chEn = c.chEn := by
  obtain ⟨_, h⟩ | ⟨_, _, h⟩ | ⟨_, _, h⟩ := c.tick_cases <;> simp [h]

@[simp] theorem Channel.tick_period (c : Channel) : c.tick.period = c.period := by
  obtain ⟨_, h⟩ | ⟨_, _, h⟩ | ⟨_, _, h⟩ := c.tick_cases <;> simp [h]

@[simp] theorem Channel.silence_chEn (c : Channel) : c.silence.chEn = false := rfl
@[simp] theorem Channel.silence_period (c : Channel) : c.silence.period = c.period := rfl
@[simp] theorem Channel.silence_cnt (c : Channel) : c.silence.cnt = 0 := rfl
@[simp] theorem Channel.silence_pend (c : Channel) : c.silence.pend = false := rfl
@[simp] theorem Channel.start_chEn (p : BitVec 16) : (Channel.start p).chEn = true := rfl
@[simp] theorem Channel.start_period (p : BitVec 16) : (Channel.start p).period = p := rfl
@[simp] theorem Channel.start_cnt (p : BitVec 16) : (Channel.start p).cnt = 0 := rfl
@[simp] theorem Channel.start_pend (p : BitVec 16) : (Channel.start p).pend = false := rfl

/-- `CH_SERVICE(n)` runs its body or has no step (R143). -/
theorem chService_cases (n : ChanId) (s : State) :
    ((s.chan n).pend = true ∧ chService n s = serviceBody n s) ∨
    ((s.chan n).pend = false ∧ chService n s = s) := by
  unfold chService
  by_cases h : (s.chan n).pend = true <;> simp [h]

/-- Everything that `PLAY_NOTE` can do (R111, R112, R172, R173, R176). -/
theorem playNote_cases (ch : BitVec 2) (note : BitVec 8) (s : State) :
    (ch = 3 ∧ playNote ch note s = s.setErr .badCh) ∨
    ∃ n, ch = fieldOfChan n ∧
      ((note = noteNone ∧ playNote ch note s = silenceChan n s) ∨
       (note ≠ noteNone ∧ note.toNat < s.cfg.noteCount ∧ playNote ch note s = startNote n note.toNat s) ∨
       (note ≠ noteNone ∧ s.cfg.noteCount ≤ note.toNat ∧ playNote ch note s = s.setErr .badNote)) := by
  cases h : chanOfField ch with
  | none => exact .inl ⟨chanOfField_eq_none.mp h, by simp [playNote, h, raiseCmdError]⟩
  | some n =>
    refine .inr ⟨n, chanOfField_eq_some.mp h, ?_⟩
    by_cases h₁ : note = noteNone
    · subst h₁
      exact .inl ⟨rfl, by simp [playNote, h, noteOperand_none]⟩
    · by_cases h₂ : note.toNat < s.cfg.noteCount
      · exact .inr (.inl ⟨h₁, h₂, by simp [playNote, h, noteOperand_index h₁ h₂]⟩)
      · have h₃ := Nat.not_lt.mp h₂
        exact .inr (.inr ⟨h₁, h₃, by simp [playNote, h, noteOperand_invalid h₁ h₃, raiseCmdError]⟩)

end Sys2Proof.Machine
end

