-- ==== Sys2Proof/Laws/PerInstr.lean ====
section
/-! SUPPORT. The family `MatchesRow`: the word of each command matches the row of the opcode map that it stands in
(30_encoding.md R94). -/

namespace Sys2Proof.Laws

/-- The command's word matches its row, and its row is one of the map. -/
def MatchesRow.Statement (i : Instr) : Prop := i.row.hits (encode i) = true ∧ i.row ∈ opcodeRows

theorem MatchesRow.enableOutput (e : BitVec 1) : MatchesRow.Statement (.enableOutput e) := by
  unfold MatchesRow.Statement
  exact ⟨by revert e; decide, by simp [Instr.row, opcodeRows]⟩

theorem MatchesRow.playNote (ch : BitVec 2) (note : BitVec 8) : MatchesRow.Statement (.playNote ch note) := by
  refine ⟨?_, by simp [Instr.row, opcodeRows]⟩
  simp only [OpcodeRow.hits, Instr.row, encode, placeAt, beq_iff_eq]
  ext i hi
  interval_cases i <;> simp

theorem MatchesRow.setVolume (v : BitVec 2) : MatchesRow.Statement (.setVolume v) := by
  unfold MatchesRow.Statement
  exact ⟨by revert v; decide, by simp [Instr.row, opcodeRows]⟩

theorem MatchesRow.getVolume : MatchesRow.Statement .getVolume := ⟨by decide, by simp [Instr.row, opcodeRows]⟩

theorem MatchesRow.getStatus : MatchesRow.Statement .getStatus := ⟨by decide, by simp [Instr.row, opcodeRows]⟩

end Sys2Proof.Laws
end

