-- ==== Sys2Proof/Laws/Step.lean ====
section
/-! SUPPORT. What the turn leaves alone, and the inversion of a step: the one lemma about everything a step can do. -/

namespace Sys2Proof.Machine

/-! ### Giving the turn changes nothing of the engine -/

theorem State.dropTurn_cases (s : State) :
    (s.turns = [] ∧ s.dropTurn = { s with turns := (freeRound s.round).tail, round := s.round + 1 }) ∨
    (∃ t ts, s.turns = t :: ts ∧ s.dropTurn = { s with turns := ts }) := by
  cases h : s.turns with
  | nil => exact .inl ⟨rfl, by simp [State.dropTurn, State.agenda, h]⟩
  | cons t ts => exact .inr ⟨t, ts, rfl, by simp [State.dropTurn, h]⟩

/-- Every field of the engine, the configuration and the host's wait pass through `advance`; only the turn and a taken word go. -/
theorem State.advance_engine (s : State) :
    s.advance.cfg = s.cfg ∧ s.advance.power = s.power ∧ s.advance.mix = s.mix ∧ s.advance.duty = s.duty ∧
    s.advance.pwmCnt = s.pwmCnt ∧ s.advance.ch0 = s.ch0 ∧ s.advance.ch1 = s.ch1 ∧ s.advance.ch2 = s.ch2 ∧
    s.advance.err = s.err ∧ s.advance.resp = s.resp ∧ s.advance.waiting = s.waiting := by
  unfold State.advance
  obtain ⟨_, h⟩ | ⟨_, _, _, h⟩ := s.dropTurn_cases <;> cases s.nextTurn <;> simp [h]

@[simp] theorem State.advance_cfg (s : State) : s.advance.cfg = s.cfg := s.advance_engine.1
@[simp] theorem State.advance_power (s : State) : s.advance.power = s.power := s.advance_engine.2.1
@[simp] theorem State.advance_mix (s : State) : s.advance.mix = s.mix := s.advance_engine.2.2.1
@[simp] theorem State.advance_duty (s : State) : s.advance.duty = s.duty := s.advance_engine.2.2.2.1
@[simp] theorem State.advance_pwmCnt (s : State) : s.advance.pwmCnt = s.pwmCnt := s.advance_engine.2.2.2.2.1
@[simp] theorem State.advance_ch0 (s : State) : s.advance.ch0 = s.ch0 := s.advance_engine.2.2.2.2.2.1
@[simp] theorem State.advance_ch1 (s : State) : s.advance.ch1 = s.ch1 := s.advance_engine.2.2.2.2.2.2.1
@[simp] theorem State.advance_ch2 (s : State) : s.advance.ch2 = s.ch2 := s.advance_engine.2.2.2.2.2.2.2.1
@[simp] theorem State.advance_err (s : State) : s.advance.err = s.err := s.advance_engine.2.2.2.2.2.2.2.2.1
@[simp] theorem State.advance_resp (s : State) : s.advance.resp = s.resp := s.advance_engine.2.2.2.2.2.2.2.2.2.1
@[simp] theorem State.advance_waiting (s : State) : s.advance.waiting = s.waiting :=
  s.advance_engine.2.2.2.2.2.2.2.2.2.2

@[simp] theorem State.advance_chan (s : State) (n : ChanId) : s.advance.chan n = s.chan n := by
  cases n <;> simp [State.chan]

@[simp] theorem State.advance_anyOverrun (s : State) : s.advance.anyOverrun = s.anyOverrun := by
  simp [State.anyOverrun]

@[simp] theorem State.advance_statusWord (s : State) : s.advance.statusWord = s.statusWord := by
  simp [State.statusWord, chanMask]

/-! ### The next turn -/

theorem State.nextTurn_of_turns {s : State} {t : Turn} {ts : List Turn} (h : s.turns = t :: ts) :
    s.nextTurn = t := by
  simp [State.nextTurn, State.agenda, h]

theorem State.dropTurn_of_turns {s : State} {t : Turn} {ts : List Turn} (h : s.turns = t :: ts) :
    s.dropTurn = { s with turns := ts } := by
  simp [State.dropTurn, h]

theorem State.nextAction_of_turns {s : State} {t : Turn} {ts : List Turn} (h : s.turns = t :: ts) :
    s.nextAction = match t with
      | .host => if s.waiting then .takeResponse else hostAction s.port
      | .hostTake => .takeResponse
      | .timerClock => .tmrTick
      | .pwmClock => .pwmTick
      | .service n => .service n
      | .reset => .reset := by
  rw [State.nextAction, State.nextTurn_of_turns h]
  cases t <;> rfl

theorem State.advance_of_turns {s : State} {t : Turn} {ts : List Turn} (h : s.turns = t :: ts) :
    s.advance = match t with
      | .host => { s with turns := ts, port := if s.waiting then s.port else s.port.tail }
      | _ => { s with turns := ts } := by
  simp only [State.advance, State.nextTurn_of_turns h, State.dropTurn_of_turns h]
  cases t <;> rfl

/-- A stretch of the free order is never empty, so `nextTurn` never answers its default. -/
theorem freeRound_ne_nil (k : Nat) : freeRound k ≠ [] := by
  simp [freeRound]

/-! ### The inversion of a command and of a step -/

theorem bit_cases (e : BitVec 1) : e = 0 ∨ e = 1 := by
  revert e; decide

/-- Everything that a command can do. -/
theorem exec_cases {i : Instr} {s t : State} (h : exec i s = .next t) :
    (i = .enableOutput 1 ∧ t = powerOn s) ∨
    (i = .enableOutput 0 ∧ t = powerOff s) ∨
    (∃ ch note, i = .playNote ch note ∧ t = playNote ch note s) ∨
    (∃ v, i = .setVolume v ∧ t = s.setVol v) ∨
    (i = .getVolume ∧ t = s.respond ((mixVol s.mix).setWidth 16)) ∨
    (i = .getStatus ∧ t = s.respond s.statusWord) := by
  cases i with
  | enableOutput e =>
    obtain rfl | rfl := bit_cases e
    · exact .inr (.inl ⟨rfl, by cases h; rfl⟩)
    · exact .inl ⟨rfl, by cases h; rfl⟩
  | playNote ch note => exact .inr (.inr (.inl ⟨ch, note, rfl, by cases h; rfl⟩))
  | setVolume v => exact .inr (.inr (.inr (.inl ⟨v, rfl, by cases h; rfl⟩)))
  | getVolume => exact .inr (.inr (.inr (.inr (.inl ⟨rfl, by cases h; rfl⟩))))
  | getStatus => exact .inr (.inr (.inr (.inr (.inr ⟨rfl, by cases h; rfl⟩))))

/-- Everything that a step can do, the action and the next state together. -/
theorem step_cases {s t : State} (h : step s = .next t) :
    (∃ i, s.nextAction = .command i ∧ exec i s.advance = .next t) ∨
    (s.nextAction = .illegal ∧ t = s.advance.setErr .ill) ∨
    (s.nextAction = .idle ∧ t = s.advance) ∨
    (s.nextAction = .takeResponse ∧ t = takeResponse s.advance) ∨
    (s.nextAction = .tmrTick ∧ t = tmrTick s.advance) ∨
    (s.nextAction = .pwmTick ∧ t = pwmTick s.advance) ∨
    (∃ n, s.nextAction = .service n ∧ t = chService n s.advance) ∨
    (s.nextAction = .reset ∧ t = resetEvent s.advance) := by
  unfold step at h
  cases ha : s.nextAction with
  | command i => exact .inl ⟨i, rfl, by rw [ha] at h; exact h⟩
  | illegal => exact .inr (.inl ⟨rfl, by rw [ha] at h; cases h; rfl⟩)
  | idle => exact .inr (.inr (.inl ⟨rfl, by rw [ha] at h; cases h; rfl⟩))
  | takeResponse => exact .inr (.inr (.inr (.inl ⟨rfl, by rw [ha] at h; cases h; rfl⟩)))
  | tmrTick => exact .inr (.inr (.inr (.inr (.inl ⟨rfl, by rw [ha] at h; cases h; rfl⟩))))
  | pwmTick => exact .inr (.inr (.inr (.inr (.inr (.inl ⟨rfl, by rw [ha] at h; cases h; rfl⟩)))))
  | service n => exact .inr (.inr (.inr (.inr (.inr (.inr (.inl ⟨n, rfl, by rw [ha] at h; cases h; rfl⟩))))))
  | reset => exact .inr (.inr (.inr (.inr (.inr (.inr (.inr ⟨rfl, by rw [ha] at h; cases h; rfl⟩))))))

/-- The inversion of a step down to the shared operations: each row is an action, what it needs, and the next state. Every
statement about all steps is a case analysis over this one lemma. -/
theorem step_inversion {s t : State} (h : step s = .next t) :
    (s.nextAction = .command (.enableOutput 1) ∧ t = powerOn s.advance) ∨
    (s.nextAction = .command (.enableOutput 0) ∧ t = powerOff s.advance) ∨
    (∃ note, s.nextAction = .command (.playNote 3 note) ∧ t = s.advance.setErr .badCh) ∨
    (∃ n, s.nextAction = .command (.playNote (fieldOfChan n) noteNone) ∧ t = silenceChan n s.advance) ∨
    (∃ n note, s.nextAction = .command (.playNote (fieldOfChan n) note) ∧ note ≠ noteNone ∧
      note.toNat < s.cfg.noteCount ∧ t = startNote n note.toNat s.advance) ∨
    (∃ n note, s.nextAction = .command (.playNote (fieldOfChan n) note) ∧ note ≠ noteNone ∧
      s.cfg.noteCount ≤ note.toNat ∧ t = s.advance.setErr .badNote) ∨
    (∃ v, s.nextAction = .command (.setVolume v) ∧ t = s.advance.setVol v) ∨
    (s.nextAction = .command .getVolume ∧ t = s.advance.respond (s.vol.setWidth 16)) ∨
    (s.nextAction = .command .getStatus ∧ t = s.advance.respond s.statusWord) ∨
    (s.nextAction = .illegal ∧ t = s.advance.setErr .ill) ∨
    (s.nextAction = .idle ∧ t = s.advance) ∨
    (s.nextAction = .takeResponse ∧ t = takeResponse s.advance) ∨
    (s.nextAction = .tmrTick ∧ t = tmrTick s.advance) ∨
    (s.nextAction = .pwmTick ∧ t = pwmTick s.advance) ∨
    (∃ n, s.nextAction = .service n ∧ (s.chan n).pend = true ∧ t = serviceBody n s.advance) ∨
    (∃ n, s.nextAction = .service n ∧ (s.chan n).pend = false ∧ t = s.advance) ∨
    (s.nextAction = .reset ∧ t = resetEvent s.advance) := by
  obtain ⟨i, ha, he⟩ | h | h | h | h | h | ⟨n, ha, rfl⟩ | h := step_cases h
  · obtain ⟨rfl, rfl⟩ | ⟨rfl, rfl⟩ | ⟨ch, note, rfl, rfl⟩ | ⟨v, rfl, rfl⟩ | ⟨rfl, rfl⟩ | ⟨rfl, rfl⟩ := exec_cases he
    · exact .inl ⟨ha, rfl⟩
    · exact .inr (.inl ⟨ha, rfl⟩)
    · obtain ⟨rfl, hp⟩ | ⟨n, rfl, ⟨rfl, hp⟩ | ⟨h₁, h₂, hp⟩ | ⟨h₁, h₂, hp⟩⟩ := playNote_cases ch note s.advance
      · exact .inr (.inr (.inl ⟨note, ha, hp⟩))
      · exact .inr (.inr (.inr (.inl ⟨n, ha, hp⟩)))
      · exact .inr (.inr (.inr (.inr (.inl ⟨n, note, ha, h₁, by simpa using h₂, hp⟩))))
      · exact .inr (.inr (.inr (.inr (.inr (.inl ⟨n, note, ha, h₁, by simpa using h₂, hp⟩)))))
    · exact .inr (.inr (.inr (.inr (.inr (.inr (.inl ⟨v, ha, rfl⟩))))))
    · exact .inr (.inr (.inr (.inr (.inr (.inr (.inr (.inl ⟨ha, by simp [State.vol]⟩)))))))
    · exact .inr (.inr (.inr (.inr (.inr (.inr (.inr (.inr (.inl ⟨ha, by simp⟩))))))))
  · exact .inr (.inr (.inr (.inr (.inr (.inr (.inr (.inr (.inr (.inl h)))))))))
  · exact .inr (.inr (.inr (.inr (.inr (.inr (.inr (.inr (.inr (.inr (.inl h))))))))))
  · exact .inr (.inr (.inr (.inr (.inr (.inr (.inr (.inr (.inr (.inr (.inr (.inl h)))))))))))
  · exact .inr (.inr (.inr (.inr (.inr (.inr (.inr (.inr (.inr (.inr (.inr (.inr (.inl h))))))))))))
  · exact .inr (.inr (.inr (.inr (.inr (.inr (.inr (.inr (.inr (.inr (.inr (.inr (.inr (.inl h)))))))))))))
  · obtain ⟨hp, hs⟩ | ⟨hp, hs⟩ := chService_cases n s.advance
    · exact .inr (.inr (.inr (.inr (.inr (.inr (.inr (.inr (.inr (.inr (.inr (.inr (.inr (.inr (.inl
        ⟨n, ha, by simpa using hp, hs⟩))))))))))))))
    · exact .inr (.inr (.inr (.inr (.inr (.inr (.inr (.inr (.inr (.inr (.inr (.inr (.inr (.inr (.inr (.inl
        ⟨n, ha, by simpa using hp, hs⟩)))))))))))))))
  · exact .inr (.inr (.inr (.inr (.inr (.inr (.inr (.inr (.inr (.inr (.inr (.inr (.inr (.inr (.inr (.inr
      h)))))))))))))))

/-! ### Runs -/

@[simp] theorem State.after_zero (s : State) : s.after 0 = s := rfl

theorem State.after_succ (s : State) (k : Nat) : s.after (k + 1) = (s.after k).stepped := rfl

/-- A run can be read from its first step as well as from its last. -/
theorem State.after_succ_left (s : State) (k : Nat) : s.after (k + 1) = s.stepped.after k := by
  induction k with
  | zero => rfl
  | succ k ih => rw [State.after_succ, ih, ← State.after_succ]

theorem State.after_add (s : State) (j k : Nat) : s.after (j + k) = (s.after j).after k := by
  induction k with
  | zero => rfl
  | succ k ih => rw [← Nat.add_assoc, State.after_succ, ih, ← State.after_succ]

theorem State.stepped_of_step {s t : State} (h : step s = .next t) : s.stepped = t := by
  simp [State.stepped, h]

end Sys2Proof.Machine
end

