-- ==== Sys2Proof/Tests/Slice0.lean ====
section
/-! SUPPORT. Tests of the model, with results taken from 95_test_vectors.md or worked out by hand from the rules, and
the witnesses: for each obligation with hypotheses, a concrete state and operands that meet all of them together. -/

namespace Sys2Proof.Tests

open Sys2Proof.Machine

/-! ### Helpers: small states under the example configuration `EX` (00_scope.md R13) -/

/-- A channel that is silent, its period never loaded. -/
def off : Channel := Channel.reset

/-- A channel that sounds. -/
def on (period cnt : BitVec 16) (pend : Bool) : Channel := ⟨true, period, cnt, pend⟩

/-- A state under `EX`, `DUTY` following from `MIX` (10_state.md R50.4), everything else as after reset. -/
def st (power : Bool) (mix : BitVec 5) (c0 c1 c2 : Channel) : State :=
  { State.resetUnder Config.ex with
    power := power, mix := mix, duty := dutyRead Config.ex mix, ch0 := c0, ch1 := c1, ch2 := c2 }

/-- A state whose next turns and command words are given. -/
def under (s : State) (ts : List Turn) (ws : List Word) : State := { s with turns := ts, port := ws }

/-! ### Well-formedness: each check refuses an ill-formed term -/

theorem test_wf_example : Config.ex.wf = true := by decide +kernel

theorem test_wf_refuses_period_zero : ({ Config.ex with notePeriod := [3, 0] } : Config).tablesWf = false := by decide

theorem test_wf_refuses_short_duty_table : ({ Config.ex with dutyTable := [0] } : Config).tablesWf = false := by decide

theorem test_wf_refuses_no_notes : ({ Config.ex with notePeriod := [] } : Config).noteCountInRange = false := by decide

theorem test_wf_refuses_too_many_notes :
    ({ Config.ex with notePeriod := List.replicate 256 1 } : Config).noteCountInRange = false := by decide +kernel

theorem test_wf_refuses_rate_zero : ({ Config.ex with fTimer := 0 } : Config).ratesPositive = false ∧
    ({ Config.ex with fPwm := 0 } : Config).ratesPositive = false := by decide +kernel

theorem test_wf_refuses_operands_too_large :
    (AsmLine.enableOutput 2).wf = false ∧ (AsmLine.playNote 4 0).wf = false ∧ (AsmLine.playNote 0 0x100).wf = false ∧
    (AsmLine.setVolume 4).wf = false ∧ (AsmLine.word 0x10000).wf = false ∧ (AsmLine.silence 4).wf = false := by
  decide

theorem test_contract_refuses_bad_fields :
    (Instr.playNote 3 0).honoursContract Config.ex = false ∧ (Instr.playNote 0 4).honoursContract Config.ex = false ∧
    (Instr.playNote 0 3).honoursContract Config.ex = true ∧ (Instr.playNote 2 0xFF).honoursContract Config.ex = true := by
  decide

/-! ### Decoding: words of 95_test_vectors.md section 2, bit by bit as 30_encoding.md R91 lays them out -/

theorem test_decode_enableOutput : decode 0b0001_00000000000_0#16 = .command (.enableOutput 0) ∧
    decode 0b0001_00000000000_1#16 = .command (.enableOutput 1) ∧
    decode 0b0001_00000000001_0#16 = .illegal .reservedBits ∧
    decode 0b0001_10000000000_0#16 = .illegal .reservedBits := by decide

theorem test_decode_playNote : decode 0b0010_00_01_00000100#16 = .command (.playNote 1 4) ∧
    decode 0b0010_00_10_11111111#16 = .command (.playNote 2 0xFF) ∧
    decode 0b0010_00_11_11111111#16 = .command (.playNote 3 0xFF) ∧
    decode 0b0010_01_00_00000000#16 = .illegal .reservedBits ∧
    decode 0b0010_10_00_00000000#16 = .illegal .reservedBits := by decide

theorem test_decode_setVolume : decode 0b0011_0000000000_11#16 = .command (.setVolume 3) ∧
    decode 0b0011_0000000001_00#16 = .illegal .reservedBits := by decide

theorem test_decode_queries : decode 0b0100_000000000000#16 = .command .getVolume ∧
    decode 0b0101_000000000000#16 = .command .getStatus ∧
    decode 0b0100_000000000001#16 = .illegal .reservedBits ∧
    decode 0b0101_100000000000#16 = .illegal .reservedBits := by decide

theorem test_decode_unassigned : decode 0x0000 = .illegal .unassignedOpcode ∧
    decode 0x6000 = .illegal .unassignedOpcode ∧ decode 0xF000 = .illegal .unassignedOpcode ∧
    decode 0xFFFF = .illegal .unassignedOpcode := by decide

theorem test_decodeTableWord : decodeTableWord 16 0x2105 = some (.playNote 1 5) ∧
    decodeTableWord 16 0x2400 = none ∧ decodeTableWord 32 0x2105 = none := by decide

/-- R99, R100: source text, its comment, and an operand that does not fit. -/
theorem test_assembleText :
    assembleText "  PLAY_NOTE 1, NONE ; rest".toList = some [0x21FF] ∧
    assembleText "SET_VOLUME 0x3".toList = some [0x3003] ∧ assembleText "SET_VOLUME 4".toList = none ∧
    assembleText ".word 0x6000".toList = some [0x6000] ∧
    assembleText "SILENCE_ALL".toList = some [0x20FF, 0x21FF, 0x22FF] ∧ assembleText "; note".toList = some [] := by
  decide

/-- R74, R75. -/
theorem test_byte_link : bytesOfWord 0x2105 = [0x05, 0x21] ∧ wordsOfBytes [0x05, 0x21, 0x07] = ([0x2105], [0x07]) := by
  decide

/-! ### Commands: 95_test_vectors.md sections 3 and 5 -/

/-- CV2. -/
theorem test_enableOutput_on : exec (.enableOutput 1) { st true 0 off off off with pwmCnt := 37 } =
    .next { st true 0 off off off with pwmCnt := 37 } := rfl

/-- CV3. -/
theorem test_enableOutput_off :
    exec (.enableOutput 0) { st true 0b01010 off (on 2 1 true) off with pwmCnt := 200 } =
    .next (st false 0b01000 off ⟨false, 2, 0, false⟩ off) ∧
    (st true 0b01010 off (on 2 1 true) off).duty = 40 ∧ (st false 0b01000 off off off).duty = 0 := ⟨rfl, by decide⟩

/-- CV5, CV11. -/
theorem test_playNote_channel_forms :
    exec (.playNote 0 0) (st true 0b00001 (on 5 3 true) off off) = .next (st true 0b00001 (on 3 0 false) off off) ∧
    exec (.playNote 0 0xFF) (st true 0b10001 (on 5 2 true) off off) =
      .next (st true 0b10000 ⟨false, 5, 0, false⟩ off off) ∧
    (st true 0b10001 off off off).duty = 60 ∧ (st true 0b00001 off off off).duty = 20 := ⟨rfl, rfl, by decide⟩

/-- CV6 to CV9. -/
theorem test_playNote_errors :
    exec (.playNote 1 4) (st false 0 off off off) = .next { st false 0 off off off with err := 0b0100 } ∧
    exec (.playNote 1 0xFE) (st false 0 off off off) = .next { st false 0 off off off with err := 0b0100 } ∧
    exec (.playNote 3 0xFF) (st false 0 off off off) = .next { st false 0 off off off with err := 0b0010 } ∧
    exec (.playNote 3 0x80) (st false 0 off off off) = .next { st false 0 off off off with err := 0b0010 } :=
  ⟨rfl, rfl, rfl, rfl⟩

/-- CV13, CV14. -/
theorem test_setVolume :
    exec (.setVolume 0) (st true 0b10111 off off off) = .next { st true 0b00111 off off off with duty := 60 } ∧
    exec (.setVolume 3) (st true 0b00111 off off off) = .next { st true 0b11111 off off off with duty := 240 } :=
  ⟨rfl, rfl⟩

/-- CV15. -/
theorem test_getVolume : exec .getVolume (st true 0b01110 off off off) =
    .next { st true 0b01110 off off off with resp := [0x0001] } := rfl

/-- CV16. -/
theorem test_getStatus :
    exec .getStatus { st true 0b11101 (on 3 0 true) (on 2 0 false) (on 5 0 false) with err := 0b1000 } =
    .next { st true 0b11101 (on 3 0 true) (on 2 0 false) (on 5 0 false) with err := 0b1000, resp := [0x83EF] } := rfl

/-- Section 2, 0x4001: `ERR.ILL`, and no response. The step takes the word and the turn. -/
theorem test_illegal_step : step (under (st true 0 off off off) [.host] [0x4001]) =
    .next { under (st true 0 off off off) [] [] with err := 0b0001 } := rfl

/-- R214, 93 item 16: after the illegal query 0x4001 the host finds no word, and then issues none. -/
theorem test_host_waits : ((under (st true 0 off off off) [.host, .hostTake, .host] [0x4001, 0x1000]).after 3).hostHangs ∧
    ((under (st true 0 off off off) [.host, .hostTake, .host] [0x4001, 0x1000]).after 3).port = [0x1000] := by
  unfold State.hostHangs; decide

/-- R80, R196: after a query the host finds its word and goes on. -/
theorem test_host_reads : ((under (st true 0 off off off) [.host, .hostTake] [0x4000]).after 2).waiting = false ∧
    ((under (st true 0 off off off) [.host, .hostTake] [0x4000]).after 2).resp = [] := by decide

/-- CV1, through the placing of a word. -/
theorem test_step_runs_placed_word : step ((st false 0 off off off).withFetchWord 16 0x1001) =
    .next (st true 0 off off off) := rfl

/-! ### Events: 95_test_vectors.md sections 4 and 5 -/

/-- E1, E4, E5. -/
theorem test_tmrTick :
    tmrTick (st false 0 (on 3 0 false) off off) = st false 0 (on 3 0 false) off off ∧
    tmrTick (st true 0 off off (on 1 0 true)) = { st true 0 off off (on 1 0 true) with err := 0b1000 } ∧
    tmrTick (st true 0 (on 3 2 false) (on 2 1 false) (on 1 0 false)) =
      st true 0 (on 3 0 true) (on 2 0 true) (on 1 0 true) := ⟨rfl, rfl, rfl⟩

/-- E2, E6. -/
theorem test_tmrTick_counts :
    tmrTick (st true 0 (on 3 1 false) ⟨false, 2, 0, false⟩ off) = st true 0 (on 3 2 false) ⟨false, 2, 0, false⟩ off := rfl

/-- E8, and E9a's first step. -/
theorem test_chService :
    chService .c1 (st true 0b11011 (on 3 0 false) (on 2 0 true) off) =
      { st true 0b11001 (on 3 0 false) (on 2 0 false) off with duty := 80 } ∧
    chService .c0 (st true 0b01001 (on 3 0 true) (on 2 0 true) off) =
      { st true 0b01000 (on 3 0 false) (on 2 0 true) off with duty := 0 } := ⟨rfl, rfl⟩

/-- E10, E10b. -/
theorem test_pwmTick :
    pwmTick { st true 0 off off off with pwmCnt := 254 } = { st true 0 off off off with pwmCnt := 255 } ∧
    pwmTick { st true 0 off off off with pwmCnt := 255 } = st true 0 off off off ∧
    pwmTick (st false 0 off off off) = st false 0 off off off := ⟨rfl, rfl, rfl⟩

/-- E11, E11b, E11c, E11d. -/
theorem test_pin :
    ({ st true 0 off off off with duty := 1, pwmCnt := 0 } : State).pwmOut = true ∧
    ({ st true 0 off off off with duty := 1, pwmCnt := 1 } : State).pwmOut = false ∧
    ({ st true 0 off off off with duty := 255, pwmCnt := 255 } : State).pwmOut = false ∧
    ({ st true 0 off off off with duty := 0, pwmCnt := 0 } : State).pwmOut = false ∧
    ({ st false 0b10000 off off off with duty := 200 } : State).pwmOut = false := by decide

/-- X3. -/
theorem test_reset_event :
    resetEvent { st true 0b11101 (on 3 1 true) off (on 5 2 false) with err := 0b1001, resp := [0x0003] } =
    st false 0 off off off := rfl

/-! ### Witnesses for the hypotheses of the obligations -/

/-- Three channels that sound, channel 0 with a match that waits, and a boundary count on channel 1. -/
def busy : State := st true 0b01011 (on 3 0 true) (on 2 1 false) (on 1 0 false)

theorem busy_inv : busy.Inv :=
  ⟨test_wf_example, by intro n; cases n <;> exact ⟨by decide, by decide, by decide⟩, by decide, by decide⟩

/-- The stopped engine of `EX`. -/
def stopped : State := st false 0 off off off

theorem stopped_inv : stopped.Inv :=
  ⟨test_wf_example, by intro n; cases n <;> exact ⟨by decide, by decide, by decide⟩, by decide, by decide⟩

/-- EncodeOfDecode, OpcodeMapIsDecoder: a word for each row, the operands at their largest, and one that is illegal. -/
theorem witness_decode : decode 0x1001 = .command (.enableOutput 1) ∧ decode 0x23FF = .command (.playNote 3 0xFF) ∧
    decode 0x3003 = .command (.setVolume 3) ∧ decode 0x4000 = .command .getVolume ∧
    decode 0x5000 = .command .getStatus ∧ (∃ r ∈ opcodeRows, (0x23FF : Word) &&& r.mask = r.value) ∧
    (∀ r ∈ opcodeRows, (0xFFFF : Word) &&& r.mask ≠ r.value) := by decide

/-- IllegalWordsAreReserved, IllegalWordPerformed: the host's turn with an illegal word. -/
theorem witness_illegal_turn : ∃ (s : State) (ts : List Turn) (w : Word) (ws : List Word) (why : IllegalWord),
    s.turns = .host :: ts ∧ s.waiting = false ∧ s.port = w :: ws ∧ decode w = .illegal why :=
  ⟨under busy [.host] [0x1002], [], 0x1002, [], .reservedBits, by decide⟩

/-- StepRunsDecodedCommand: the host's turn with each command's word. -/
theorem witness_command_turn : ∀ w ∈ [0x1000#16, 0x1001, 0x2103, 0x22FF, 0x3002, 0x4000, 0x5000],
    ∃ (s : State) (ts : List Turn) (ws : List Word) (i : Instr),
      s.turns = .host :: ts ∧ s.waiting = false ∧ s.port = w :: ws ∧ decode w = .command i := by
  intro w hw
  refine ⟨under busy [.host] [w], [], [], ?_⟩
  have h : ∃ i, decode w = .command i := by
    simp only [List.mem_cons, List.not_mem_nil, or_false] at hw
    rcases hw with rfl | rfl | rfl | rfl | rfl | rfl | rfl <;> exact ⟨_, rfl⟩
  exact h.imp fun i hi => ⟨rfl, rfl, rfl, hi⟩

/-- StepRunsTheAgent: each clause's turn. -/
theorem witness_agent_turns : (∃ s : State, ∃ ts, s.turns = .timerClock :: ts) ∧
    (∃ s : State, ∃ ts, s.turns = .pwmClock :: ts) ∧ (∀ n, ∃ s : State, ∃ ts, s.turns = .service n :: ts) ∧
    (∃ s : State, ∃ ts, s.turns = .reset :: ts) ∧ (∃ s : State, ∃ ts, s.turns = .hostTake :: ts) ∧
    (∃ s : State, ∃ ts, s.turns = .host :: ts ∧ s.waiting = false ∧ s.port = []) ∧
    (∃ s : State, ∃ ts, s.turns = .host :: ts ∧ s.waiting = true) :=
  ⟨⟨under busy [.timerClock] [], [], rfl⟩, ⟨under busy [.pwmClock] [], [], rfl⟩,
    fun n => ⟨under busy [.service n] [], [], rfl⟩, ⟨under busy [.reset] [], [], rfl⟩,
    ⟨under busy [.hostTake] [], [], rfl⟩, ⟨under busy [.host] [], [], rfl, rfl, rfl⟩,
    ⟨{ under busy [.host] [] with waiting := true }, [], rfl, rfl⟩⟩

/-- The statements over one step (those named …AfterStep, DutyTracksMix, OtherChannelsUntouched,
EveryStepKeepsTheInvariants): from one state that meets the invariants, a step for each kind of action. -/
theorem witness_one_step : ∀ t ∈ [Turn.host, .hostTake, .timerClock, .pwmClock, .service .c0, .service .c1, .reset],
    ∀ w ∈ [0x1000#16, 0x1001, 0x2103, 0x21FF, 0x2300, 0x2104, 0x3002, 0x4000, 0x5000, 0x6000],
    ∃ u, step (under busy [t] [w]) = .next u := by
  intro t ht w hw
  simp only [List.mem_cons, List.not_mem_nil, or_false] at ht hw
  rcases ht with rfl | rfl | rfl | rfl | rfl | rfl | rfl <;>
    rcases hw with rfl | rfl | rfl | rfl | rfl | rfl | rfl | rfl | rfl | rfl <;> exact ⟨_, rfl⟩

/-- The actions of those steps: one for each clause of the statements. -/
theorem witness_one_step_actions :
    (under busy [.host] [0x1000]).nextAction.silencesAll = true ∧
    (under busy [.host] [0x1001]).nextAction = .command (.enableOutput 1) ∧
    (under busy [.host] [0x2103]).nextAction.noteStarted Config.ex .c1 = some 3 ∧
    (under busy [.host] [0x21FF]).nextAction.silences .c1 = true ∧
    (under busy [.host] [0x2300]).nextAction = .command (.playNote 3 0) ∧
    (under busy [.host] [0x2104]).nextAction = .command (.playNote 1 4) ∧
    (under busy [.host] [0x6000]).nextAction = .illegal ∧
    (under busy [.service .c0] []).nextAction = .service .c0 ∧ (busy.chan .c0).pend = true ∧
    (busy.chan .c1).pend = false ∧ (busy.chan .c1).cnt + 1 = (busy.chan .c1).period ∧
    (busy.chan .c0).cnt + 1 ≠ (busy.chan .c0).period ∧
    (under busy [.reset] []).nextAction.silencesAll = true := by decide

/-- ErrorBitsAfterStep, TimerTickResult: a match that is lost. -/
theorem witness_overrun : ∃ s : State, s.Inv ∧ s.power = true ∧ (s.chan .c2).chEn = true ∧
    (s.chan .c2).cnt + 1 = (s.chan .c2).period ∧ (s.chan .c2).pend = true :=
  ⟨st true 0 off off (on 1 0 true),
    ⟨test_wf_example, by intro n; cases n <;> exact ⟨by decide, by decide, by decide⟩, by decide, by decide⟩, by decide⟩

/-- OtherChannelsUntouched: a service and a command of channel 0, and another channel. -/
theorem witness_other_channel : (.c1 : ChanId) ≠ .c0 ∧ (under busy [.service .c0] []).nextAction = .service .c0 ∧
    (under busy [.host] [0x2003]).nextAction = .command (.playNote (fieldOfChan .c0) 3) := by decide

/-- PowerAfterStep, PwmTickResult, TimerTickResult, PinFunction: a stopped and a running engine. -/
theorem witness_power : stopped.power = false ∧ busy.power = true ∧
    ({ busy with pwmCnt := 255 } : State).pwmCnt = 255 := by decide

/-- ResponsesAfterStep: two runs of one step that differ in the responses only. -/
theorem witness_responses : (∃ t, step (under busy [.host] [0x4000]) = .next t) ∧
    ∃ t, step { under busy [.host] [0x4000] with resp := [7] } = .next t := ⟨⟨_, rfl⟩, _, rfl⟩

/-- EnableOutputResult's example. -/
theorem witness_enableOutput_example : ∃ s t, s.cfg = Config.ex ∧ s.power = true ∧ chanMask Channel.chEn s = 0b011#3 ∧
    s.mix = 0b10001#5 ∧ s.duty = 60 ∧ exec (.enableOutput 0) s = .next t :=
  ⟨st true 0b10001 (on 3 0 false) (on 2 0 false) off, _, rfl, rfl, by decide, rfl, by decide, rfl⟩

/-- PlayNoteStartsTheChannel: the last index of `EX`. PlayNoteErrors: the first value past it. -/
theorem witness_note_bounds : (3 : BitVec 8) ≠ 0xFF ∧ (3 : BitVec 8).toNat < busy.cfg.noteCount ∧
    busy.cfg.noteCount ≤ (4 : BitVec 8).toNat ∧ (4 : BitVec 8) ≠ 0xFF ∧
    busy.cfg.noteCount ≤ (0xFE : BitVec 8).toNat ∧ (0xFE : BitVec 8) ≠ 0xFF ∧ (2 : BitVec 2) ≠ 3 := by decide

/-- PlayNoteSilencesTheChannel's example. -/
theorem witness_silence_example : ∃ s t, s.cfg = Config.ex ∧ chanMask Channel.chEn s = 0b011#3 ∧ s.mix = 0b00011#5 ∧
    s.duty = 40 ∧ exec (.playNote 0 0xFF) s = .next t :=
  ⟨st true 0b00011 (on 3 0 false) (on 2 0 false) off, _, rfl, by decide, rfl, by decide, rfl⟩

/-- SetVolumeResult's example. -/
theorem witness_setVolume_example : ∃ s t, s.cfg = Config.ex ∧ s.mix = 0b00101#5 ∧ s.duty = 40 ∧
    exec (.setVolume 3) s = .next t := ⟨st true 0b00101 (on 3 0 false) off (on 5 0 false), _, rfl, rfl, by decide, rfl⟩

/-- GetVolumeResult's example. -/
theorem witness_getVolume_example : ∃ s t, s.mix = 0b10110#5 ∧ exec .getVolume s = .next t :=
  ⟨st true 0b10110 off (on 2 0 false) (on 5 0 false), _, rfl, rfl⟩

/-- QueriesRepeat: each query, twice. -/
theorem witness_queries : ∀ i ∈ [Instr.getVolume, .getStatus], ∃ t u, exec i busy = .next t ∧ exec i t = .next u := by
  intro i hi
  simp only [List.mem_cons, List.not_mem_nil, or_false] at hi
  rcases hi with rfl | rfl <;> exact ⟨_, _, rfl, rfl⟩

/-- ErrorDiscardsOtherWrites, ContractDecidesErrors: a command that raises an error, one that keeps to the contract, and an
illegal word. -/
theorem witness_errors : (∃ t, exec (.playNote 3 0) busy = .next t ∧ t.err ≠ busy.err) ∧
    (∃ t, exec (.playNote 2 4) busy = .next t ∧ t.err ≠ busy.err) ∧
    (∃ t, execIllegal busy = .next t ∧ t.err ≠ busy.err) ∧
    (Instr.playNote 3 0).honoursContract busy.cfg = false ∧ (Instr.playNote 2 4).honoursContract busy.cfg = false ∧
    (∃ t, exec (.playNote 2 3) busy = .next t) ∧ (Instr.playNote 2 3).honoursContract busy.cfg = true :=
  ⟨⟨_, rfl, by decide⟩, ⟨_, rfl, by decide⟩, ⟨_, rfl, by decide⟩, by decide, by decide, ⟨_, rfl⟩, by decide⟩

/-- TimerTickResult's example, and a period of 1 that meets the invariants. -/
theorem witness_tick_example : busy.Inv ∧ busy.power = true ∧
    busy.chan .c1 = { chEn := true, period := 2, cnt := 1, pend := false } ∧ (busy.chan .c2).chEn = true ∧
    (busy.chan .c2).period = 1 ∧
    ¬ ∃ n, (busy.chan n).chEn = true ∧ (busy.chan n).cnt + 1 = (busy.chan n).period ∧ (busy.chan n).pend = true :=
  ⟨busy_inv, by decide, by decide, by decide, by decide, by rintro ⟨n, h⟩; revert h; cases n <;> decide⟩

/-- ServiceResult: both clauses, and the example. -/
theorem witness_service : busy.Inv ∧ (busy.chan .c0).pend = true ∧ (busy.chan .c1).pend = false ∧
    ∃ s : State, s.Inv ∧ s.cfg = Config.ex ∧ s.mix = 0b01000#5 ∧ (s.chan .c2).pend = true :=
  ⟨busy_inv, by decide, by decide, st true 0b01000 off off (on 5 0 true),
    ⟨test_wf_example, by intro n; cases n <;> exact ⟨by decide, by decide, by decide⟩, by decide, by decide⟩, rfl, rfl, rfl⟩

/-- CarrierDutyFraction: a carrier period at its start, with ticks of both clocks, and the turns of a whole period. -/
theorem witness_carrier :
    (∃ s : State, s.pwmCnt = 0 ∧ s.pwmTickCount 2 = 1 ∧
      ∀ j, j ≤ 2 → (s.after j).power = true ∧ (s.after j).duty = s.duty) ∧
    ∃ (s : State) (ts : List Turn), s.power = true ∧ s.pwmCnt = 0 ∧ s.turns = List.replicate 256 .pwmClock ++ ts := by
  refine ⟨⟨under busy [.pwmClock, .timerClock] [], rfl, by decide, ?_⟩,
    under busy (List.replicate 256 .pwmClock) [], [], rfl, rfl, (List.append_nil _).symm⟩
  intro j hj
  have : j = 0 ∨ j = 1 ∨ j = 2 := by omega
  rcases this with rfl | rfl | rfl <;> decide

/-- Two timer ticks with a service between them: channel 0 is left alone, and no match of it is lost. -/
def tickServiceTick : State := under busy [.timerClock, .service .c0, .timerClock] []

/-- CompareMatchEveryPeriod, SquareWave: every premise, on three steps. -/
theorem witness_left_alone : tickServiceTick.Inv ∧ tickServiceTick.power = true ∧
    (tickServiceTick.chan .c0).chEn = true ∧
    (∀ j, j < 3 → leavesAlone .c0 (tickServiceTick.after j).nextAction) ∧
    (∀ j, j < 3 → (tickServiceTick.after j).nextAction = .tmrTick → ((tickServiceTick.after j).chan .c0).pend = true →
      ((tickServiceTick.after j).chan .c0).cnt + 1 ≠ ((tickServiceTick.after j).chan .c0).period) := by
  refine ⟨⟨test_wf_example, by intro n; cases n <;> exact ⟨by decide, by decide, by decide⟩, by decide, by decide⟩,
    rfl, rfl, ?_, ?_⟩
  · intro j hj
    have : j = 0 ∨ j = 1 ∨ j = 2 := by omega
    rcases this with rfl | rfl | rfl <;> exact ⟨by decide, by decide, fun note => nofun⟩
  · intro j hj
    have : j = 0 ∨ j = 1 ∨ j = 2 := by omega
    rcases this with rfl | rfl | rfl <;> decide

/-- NoUpdateLost: a volume write, and the silence of another channel. -/
theorem witness_no_update_lost : (under busy [] [0x3002]).port = 0x3002 :: [] ∧
    decode 0x3002 = .command (.setVolume 2) ∧ (.c1 : ChanId) ≠ .c0 ∧
    decode 0x21FF = .command (.playNote (fieldOfChan .c1) noteNone) := by decide

/-- VolumeAndLevelsInterleave: a run with a service and a volume write, no reset and no silence. -/
theorem witness_interleave : ∀ j, j < 2 →
    ((under busy [.service .c0, .host] [0x3002]).after j).nextAction ≠ .reset ∧
    ((under busy [.service .c0, .host] [0x3002]).after j).nextAction.silencesAll = false ∧
    ((under busy [.service .c0, .host] [0x3002]).after j).nextAction.silences .c0 = false := by
  intro j hj
  have : j = 0 ∨ j = 1 := by omega
  rcases this with rfl | rfl <;> decide

/-- ChannelIndependence: two states that agree on channel 0 and differ in everything else. -/
theorem witness_independence : ∃ s s' : State, s'.cfg = s.cfg ∧ s'.power = s.power ∧ s'.port = s.port ∧
    s'.turns = s.turns ∧ s'.round = s.round ∧ s'.waiting = s.waiting ∧ s'.resp.length = s.resp.length ∧
    s'.chan .c0 = s.chan .c0 ∧ s'.lvl .c0 = s.lvl .c0 ∧ s'.chan .c1 ≠ s.chan .c1 ∧ s'.vol ≠ s.vol ∧ s'.err ≠ s.err :=
  ⟨{ busy with resp := [0] }, { st true 0b10001 (on 3 0 true) off off with err := 1, resp := [2] }, by decide⟩

/-- AdditiveOutput: `EX` has the property `DUTY_ADDITIVE` (00_scope.md R13), and two states of it differ in which level is
high. -/
theorem witness_additive : Config.ex.DutyAdditive ∧ ∃ s s' : State, s.Inv ∧ s'.Inv ∧ s.cfg = Config.ex ∧ s'.cfg = s.cfg ∧
    s'.vol = s.vol ∧ s'.mix ≠ s.mix ∧ popcount3 (mixLvl s.mix) = popcount3 (mixLvl s'.mix) ∧ s'.power = s.power ∧
    s'.pwmCnt = s.pwmCnt := by
  refine ⟨by unfold Config.DutyAdditive; decide +kernel, st true 0b01001 (on 3 0 false) (on 2 0 false) off,
    st true 0b01010 (on 3 0 false) (on 2 0 false) off, ?_, ?_, by decide⟩ <;>
  exact ⟨test_wf_example, by intro n; cases n <;> exact ⟨by decide, by decide, by decide⟩, by decide, by decide⟩

/-- OnlyEnableOutputWakes, SilentUntilNote, WaitingForNoResponse: a stopped, silent engine on which the host sets the volume
and the clocks tick. -/
def waiting : State := under stopped [.host, .timerClock, .hostTake] [0x3002]

theorem witness_stopped_run : waiting.Inv ∧ waiting.power = false ∧ (∀ n, (waiting.chan n).chEn = false) ∧
    waiting.resp = [] ∧ ((waiting.after 2).nextTurn = .hostTake) ∧ ∀ j, j < 2 →
      (waiting.after j).nextAction ≠ .command (.enableOutput 1) ∧
      (∀ n, (waiting.after j).nextAction.noteStarted waiting.cfg n = none) ∧
      (waiting.after j).nextAction ≠ .command .getVolume ∧ (waiting.after j).nextAction ≠ .command .getStatus := by
  refine ⟨⟨test_wf_example, by intro n; cases n <;> exact ⟨by decide, by decide, by decide⟩, by decide, by decide⟩,
    rfl, by intro n; cases n <;> rfl, rfl, by decide, ?_⟩
  intro j hj
  have : j = 0 ∨ j = 1 := by omega
  rcases this with rfl | rfl <;> exact ⟨by decide, by intro n; cases n <;> rfl, by decide, by decide⟩

/-- WaitIsForEver: a host that waits with a word still to issue and turns to come, and each clause's step. -/
theorem witness_hang : ({ under busy [.host, .service .c0] [0x3002] with waiting := true } : State).hostHangs ∧
    (∃ t, step { under busy [.host] [0x3002] with waiting := true } = .next t) ∧
    (∃ t, step (under busy [.hostTake] [0x3002]) = .next t) ∧ ∃ t, step (under busy [.host] [0x3002]) = .next t :=
  ⟨by unfold State.hostHangs; decide, ⟨_, rfl⟩, ⟨_, rfl⟩, _, rfl⟩

/-- ErrorBitsSticky: an error bit and a run without a reset. -/
theorem witness_sticky : ({ under busy [.host] [0x5000] with err := 0b0001 } : State).errBit .ill = true ∧
    ∀ j, j < 1 → (({ under busy [.host] [0x5000] with err := 0b0001 } : State).after j).nextAction ≠ .reset := by
  refine ⟨by decide, ?_⟩
  intro j hj
  have : j = 0 := by omega
  subst this
  decide

/-- ResetState: the reset input's turn. -/
theorem witness_reset_turn : (under busy [.reset] []).nextAction = .reset := rfl

/-- InvariantsAtReset: a well-formed configuration. EveryStepKeepsTheInvariants: a step from a state that meets them. -/
theorem witness_invariants : Config.ex.wf = true ∧ (under busy [.timerClock] []).Inv ∧
    ∃ t, step (under busy [.timerClock] []) = .next t :=
  ⟨test_wf_example,
    ⟨test_wf_example, by intro n; cases n <;> exact ⟨by decide, by decide, by decide⟩, by decide, by decide⟩, _, rfl⟩

end Sys2Proof.Tests
end

/-! SUPPORT. The proofs about every step, for the statements of 10_state.md. A step is read as one row of `StepRow`; each
piece of state then has one lemma that says what any row makes of it, and the statements follow from those lemmas. -/

namespace Sys2Proof.Machine

/-! ### Actions that name a channel -/

@[simp] theorem fieldOfChan_inj {n m : ChanId} : fieldOfChan n = fieldOfChan m ↔ n = m := by
  cases n <;> cases m <;> decide

@[simp] theorem fieldOfChan_ne_three (n : ChanId) : ¬ fieldOfChan n = 3#2 := by
  cases n <;> decide

@[simp] theorem three_ne_fieldOfChan (n : ChanId) : ¬ 3#2 = fieldOfChan n := by
  cases n <;> decide

/-- Of all commands only a `PLAY_NOTE` that names the channel starts a note on it (40_commands.md R111). -/
@[simp] theorem Action.noteStarted_playNote (c : Config) (n : ChanId) (ch : BitVec 2) (note : BitVec 8) :
    (Action.command (.playNote ch note)).noteStarted c n =
      if ch = fieldOfChan n ∧ note ≠ noteNone ∧ note.toNat < c.noteCount then some note.toNat else none := rfl

/-- A started note is an index of the table (20_memory.md R70). -/
theorem Action.lt_noteCount_of_noteStarted {c : Config} {n : ChanId} {a : Action} {i : Nat}
    (h : a.noteStarted c n = some i) : i < c.noteCount := by
  unfold Action.noteStarted at h
  split at h
  · split at h
    · next hnote =>
      obtain ⟨-, -, hlt⟩ := hnote
      cases h
      exact hlt
    · cases h
  · cases h

/-! ### The rows of a step -/

/-- One row for each thing that a step can do: its action, what it needs, and the next state. The disjuncts of
`step_inversion` with names, for proofs by cases. -/
inductive StepRow (s : State) : Action → State → Prop where
  | powerOn : StepRow s (.command (.enableOutput 1)) (powerOn s.advance)
  | powerOff : StepRow s (.command (.enableOutput 0)) (powerOff s.advance)
  | badCh (note : BitVec 8) : StepRow s (.command (.playNote 3 note)) (s.advance.setErr .badCh)
  | silence (m : ChanId) : StepRow s (.command (.playNote (fieldOfChan m) noteNone)) (silenceChan m s.advance)
  | start (m : ChanId) (note : BitVec 8) (hnote : note ≠ noteNone) (hlt : note.toNat < s.cfg.noteCount) :
      StepRow s (.command (.playNote (fieldOfChan m) note)) (startNote m note.toNat s.advance)
  | badNote (m : ChanId) (note : BitVec 8) (hnote : note ≠ noteNone) (hle : s.cfg.noteCount ≤ note.toNat) :
      StepRow s (.command (.playNote (fieldOfChan m) note)) (s.advance.setErr .badNote)
  | setVolume (v : BitVec 2) : StepRow s (.command (.setVolume v)) (s.advance.setVol v)
  | getVolume : StepRow s (.command .getVolume) (s.advance.respond (s.vol.setWidth 16))
  | getStatus : StepRow s (.command .getStatus) (s.advance.respond s.statusWord)
  | illegal : StepRow s .illegal (s.advance.setErr .ill)
  | idle : StepRow s .idle s.advance
  | takeResponse : StepRow s .takeResponse (takeResponse s.advance)
  | tmrTick : StepRow s .tmrTick (tmrTick s.advance)
  | pwmTick : StepRow s .pwmTick (pwmTick s.advance)
  | serve (m : ChanId) (hpend : (s.chan m).pend = true) : StepRow s (.service m) (serviceBody m s.advance)
  | pass (m : ChanId) (hpend : (s.chan m).pend = false) : StepRow s (.service m) s.advance
  | reset : StepRow s .reset (resetEvent s.advance)

/-- Every step is one of the rows. -/
theorem stepRow_of_step {s t : State} (h : step s = .next t) : StepRow s s.nextAction t := by
  obtain ⟨ha, rfl⟩ | ⟨ha, rfl⟩ | ⟨note, ha, rfl⟩ | ⟨m, ha, rfl⟩ | ⟨m, note, ha, hn, hlt, rfl⟩ | ⟨m, note, ha, hn, hle, rfl⟩ |
    ⟨v, ha, rfl⟩ | ⟨ha, rfl⟩ | ⟨ha, rfl⟩ | ⟨ha, rfl⟩ | ⟨ha, rfl⟩ | ⟨ha, rfl⟩ | ⟨ha, rfl⟩ | ⟨ha, rfl⟩ | ⟨m, ha, hp, rfl⟩ |
    ⟨m, ha, hp, rfl⟩ | ⟨ha, rfl⟩ := step_inversion h <;> rw [ha]
  · exact .powerOn
  · exact .powerOff
  · exact .badCh note
  · exact .silence m
  · exact .start m note hn hlt
  · exact .badNote m note hn hle
  · exact .setVolume v
  · exact .getVolume
  · exact .getStatus
  · exact .illegal
  · exact .idle
  · exact .takeResponse
  · exact .tmrTick
  · exact .pwmTick
  · exact .serve m hp
  · exact .pass m hp
  · exact .reset

/-! ### The fields of `MIX` under the shared operations -/

@[simp] theorem State.advance_vol (s : State) : s.advance.vol = s.vol := by
  simp [State.vol]

@[simp] theorem State.advance_lvl (s : State) (n : ChanId) : s.advance.lvl n = s.lvl n := by
  simp [State.lvl]

@[simp] theorem State.setVol_lvl (s : State) (v : BitVec 2) (n : ChanId) : (s.setVol v).lvl n = s.lvl n := by
  simp [State.lvl]

@[simp] theorem silenceChan_lvl (m n : ChanId) (s : State) :
    (silenceChan m s).lvl n = if n = m then false else s.lvl n := by
  simp [State.lvl, lvlClear_bit]

@[simp] theorem serviceBody_lvl (m n : ChanId) (s : State) :
    (serviceBody m s).lvl n = if n = m then !s.lvl n else s.lvl n := by
  simp [State.lvl, lvlToggle_bit]

@[simp] theorem powerOff_lvl (n : ChanId) (s : State) : (powerOff s).lvl n = false := by
  simp [State.lvl]

@[simp] theorem resetEvent_lvl (n : ChanId) (s : State) : (resetEvent s).lvl n = false := by
  simp [State.lvl, mixLvl]

/-! ### One channel's tick -/

@[simp] theorem Channel.tick_cnt (c : Channel) : c.tick.cnt =
    if c.chEn = true then (if c.cnt + 1 = c.period then 0 else c.cnt + 1) else c.cnt := by
  obtain ⟨h, hk⟩ | ⟨h, hm, hk⟩ | ⟨h, hm, hk⟩ := c.tick_cases
  · simp [hk, h]
  · rw [hk, if_pos h, if_pos hm]
  · rw [hk, if_pos h, if_neg hm]

@[simp] theorem Channel.tick_pend (c : Channel) : c.tick.pend =
    if c.chEn = true ∧ c.cnt + 1 = c.period then true else c.pend := by
  obtain ⟨h, hk⟩ | ⟨h, hm, hk⟩ | ⟨h, hm, hk⟩ := c.tick_cases
  · simp [hk, h]
  · rw [hk, if_pos ⟨h, hm⟩]
  · rw [hk, if_neg fun hboth => hm hboth.2]

/-! ### What each row makes of each piece of state

In a proof by rows the writers of the piece are named, and the wildcard stands for the rows that leave it as it is. -/

section
variable {s t : State} {a : Action}

theorem StepRow.cfg (r : StepRow s a t) : t.cfg = s.cfg := by
  cases r <;> simp

theorem StepRow.power (r : StepRow s a t) :
    t.power = if a.silencesAll then false else if a = .command (.enableOutput 1) then true else s.power := by
  cases r with
  | powerOff | reset | powerOn => simp [Action.silencesAll]
  | _ => simp [Action.silencesAll]

theorem StepRow.pwmCnt (r : StepRow s a t) : t.pwmCnt =
    if a.silencesAll then 0
    else if a = .pwmTick ∧ s.power = true then
      if s.pwmCnt = 255 then 0 else s.pwmCnt + 1
    else s.pwmCnt := by
  cases r with
  | powerOff | reset => simp [Action.silencesAll]
  | pwmTick => simp [Action.silencesAll, pwmTop]
  | _ => simp [Action.silencesAll]

/-- Every row that writes `MIX` writes `DUTY` with it (41_oscillators.md R147). -/
theorem StepRow.duty_tracks (r : StepRow s a t) (h : s.duty = dutyRead s.cfg s.mix) :
    t.duty = dutyRead t.cfg t.mix := by
  cases r with
  | powerOff | silence | setVolume | serve | reset => simp
  | _ => simp [h]

theorem StepRow.vol : StepRow s a t → t.vol =
    match a with
    | .command (.setVolume v) => v
    | .reset => 0
    | _ => s.vol := by
  intro r
  cases r with
  | reset => simp [State.vol, mixVol]
  | _ => simp [State.vol]

theorem StepRow.lvl (r : StepRow s a t) (n : ChanId) : t.lvl n =
    if a.silencesAll || a.silences n then false
    else if a = .service n ∧ (s.chan n).pend = true then !s.lvl n
    else s.lvl n := by
  cases r with
  | powerOff | reset => simp [Action.silencesAll]
  | silence m =>
    obtain rfl | h := eq_or_ne m n
    · simp [Action.silences]
    · simp [Action.silencesAll, Action.silences, h, h.symm]
  | serve m hpend =>
    obtain rfl | h := eq_or_ne m n
    · simp [Action.silencesAll, Action.silences, hpend]
    · simp [Action.silencesAll, Action.silences, h, h.symm]
  | pass m hpend =>
    obtain rfl | h := eq_or_ne m n
    · simp [Action.silencesAll, Action.silences, hpend]
    · simp [Action.silencesAll, Action.silences, h]
  | start m note hnote | badNote m note hnote => simp [Action.silencesAll, Action.silences, hnote, State.lvl]
  | _ => simp [Action.silencesAll, Action.silences, State.lvl]

/-- Everything that a step can do to one channel's registers (10_state.md R40 to R43): reset, silence, the start of a note,
a tick, a service, or nothing. -/
theorem StepRow.chan_cases (r : StepRow s a t) (n : ChanId) :
    (a = .reset ∧ t.chan n = Channel.reset) ∨
    (a ≠ .reset ∧ (a.silencesAll || a.silences n) = true ∧ a.noteStarted s.cfg n = none ∧
      t.chan n = (s.chan n).silence) ∨
    (∃ i, (a.silencesAll || a.silences n) = false ∧ a.noteStarted s.cfg n = some i ∧ a ≠ .reset ∧
      t.chan n = Channel.start (noteRead s.cfg i)) ∨
    (a = .tmrTick ∧ s.power = true ∧ t.chan n = (s.chan n).tick) ∨
    (a = .service n ∧ t.chan n = { s.chan n with pend := false }) ∨
    ((a.silencesAll || a.silences n) = false ∧ a.noteStarted s.cfg n = none ∧ a ≠ .reset ∧ a ≠ .service n ∧
      ¬ (a = .tmrTick ∧ s.power = true) ∧ t.chan n = s.chan n) := by
  cases r with
  | reset => simp [resetEvent_chan]
  | powerOff => simp [powerOff_chan, Action.silencesAll, Action.noteStarted]
  | silence m =>
    obtain rfl | h := eq_or_ne m n
    · simp [silenceChan_chan, Action.silences]
    · simp [silenceChan_chan, Action.silencesAll, Action.silences, h, h.symm]
  | start m note hnote hlt =>
    obtain rfl | h := eq_or_ne m n
    · simp [startNote_chan, Action.silencesAll, Action.silences, hnote, hlt]
    · simp [startNote_chan, Action.silencesAll, Action.silences, h, h.symm]
  | badNote m note hnote hle => simp [Action.silencesAll, Action.silences, hnote, Nat.not_lt.mpr hle]
  | tmrTick =>
    by_cases hp : s.power = true
    · simp [tmrTick_chan, hp]
    · simp [tmrTick_chan, hp, Action.silencesAll, Action.silences, Action.noteStarted]
  | serve m hpend =>
    obtain rfl | h := eq_or_ne m n
    · simp [serviceBody_chan]
    · simp [serviceBody_chan, Action.silencesAll, Action.silences, Action.noteStarted, h, h.symm]
  | pass m hpend =>
    obtain rfl | h := eq_or_ne m n
    · simp [← hpend]
    · simp [Action.silencesAll, Action.silences, Action.noteStarted, h]
  | _ => simp [Action.silencesAll, Action.silences, Action.noteStarted, powerOn_chan, takeResponse_chan, pwmTick_chan]

theorem StepRow.chEn (r : StepRow s a t) (n : ChanId) : (t.chan n).chEn =
    if a.silencesAll || a.silences n then false
    else if (a.noteStarted s.cfg n).isSome then true
    else (s.chan n).chEn := by
  obtain ⟨rfl, hc⟩ | ⟨-, hs, -, hc⟩ | ⟨i, hs, hi, -, hc⟩ | ⟨rfl, -, hc⟩ | ⟨rfl, hc⟩ | ⟨hs, hi, -, -, -, hc⟩ :=
    r.chan_cases n
  · simp [hc, Channel.reset, Action.silencesAll]
  · simp [hc, hs]
  · simp [hc, hs, hi]
  · simp [hc, Action.silencesAll, Action.silences, Action.noteStarted]
  · simp [hc, Action.silencesAll, Action.silences, Action.noteStarted]
  · simp [hc, hs, hi]

theorem StepRow.period (r : StepRow s a t) (n : ChanId) : (t.chan n).period =
    if a = .reset then 0
    else match a.noteStarted s.cfg n with
      | some i => noteRead s.cfg i
      | none => (s.chan n).period := by
  obtain ⟨rfl, hc⟩ | ⟨hr, -, hi, hc⟩ | ⟨i, -, hi, hr, hc⟩ | ⟨rfl, -, hc⟩ | ⟨rfl, hc⟩ | ⟨-, hi, hr, -, -, hc⟩ :=
    r.chan_cases n
  · simp [hc, Channel.reset]
  · simp [hc, hr, hi]
  · simp [hc, hr, hi]
  · simp [hc, Action.noteStarted]
  · simp [hc, Action.noteStarted]
  · simp [hc, hr, hi]

theorem StepRow.cnt (r : StepRow s a t) (n : ChanId) : (t.chan n).cnt =
    if a.silencesAll || a.silences n || (a.noteStarted s.cfg n).isSome then 0
    else if a = .tmrTick ∧ s.power = true ∧ (s.chan n).chEn = true then
      if (s.chan n).cnt + 1 = (s.chan n).period then 0 else (s.chan n).cnt + 1
    else (s.chan n).cnt := by
  obtain ⟨rfl, hc⟩ | ⟨-, hs, -, hc⟩ | ⟨i, hs, hi, -, hc⟩ | ⟨rfl, hp, hc⟩ | ⟨rfl, hc⟩ | ⟨hs, hi, -, -, ht, hc⟩ :=
    r.chan_cases n
  · simp [hc, Channel.reset, Action.silencesAll]
  · simp [hc, hs]
  · simp [hc, hi]
  · simp [hc, hp, Action.silencesAll, Action.silences, Action.noteStarted]
  · simp [hc, Action.silencesAll, Action.silences, Action.noteStarted]
  · simp [hc, hs, hi, ← and_assoc, ht]

theorem StepRow.pend (r : StepRow s a t) (n : ChanId) : (t.chan n).pend =
    if a.silencesAll || a.silences n || (a.noteStarted s.cfg n).isSome then false
    else if a = .service n then false
    else if a = .tmrTick ∧ s.power = true ∧ (s.chan n).chEn = true ∧ (s.chan n).cnt + 1 = (s.chan n).period then true
    else (s.chan n).pend := by
  obtain ⟨rfl, hc⟩ | ⟨-, hs, -, hc⟩ | ⟨i, hs, hi, -, hc⟩ | ⟨rfl, hp, hc⟩ | ⟨rfl, hc⟩ | ⟨hs, hi, -, hn, ht, hc⟩ :=
    r.chan_cases n
  · simp [hc, Channel.reset, Action.silencesAll]
  · simp [hc, hs]
  · simp [hc, hi]
  · simp [hc, hp, Action.silencesAll, Action.silences, Action.noteStarted]
  · simp [hc]
  · simp [hc, hs, hi, hn, ← and_assoc, ht]

theorem StepRow.resp : StepRow s a t → t.resp =
    match a with
    | .command .getVolume => s.resp ++ [s.vol.setWidth 16]
    | .command .getStatus => s.resp ++ [s.statusWord]
    | .reset => []
    | .takeResponse => s.resp.tail
    | _ => s.resp := by
  intro r
  cases r with
  | getVolume | getStatus | takeResponse | reset => simp
  | _ => simp

end

/-! ### The error bits -/

/-- Some channel's match is lost at the next tick (41_oscillators.md R142). -/
theorem State.anyOverrun_iff (s : State) : s.anyOverrun = true ↔
    ∃ n, (s.chan n).chEn = true ∧ (s.chan n).cnt + 1 = (s.chan n).period ∧ (s.chan n).pend = true := by
  have hover : s.anyOverrun = true ↔ ∃ n, (s.chan n).overruns = true := by
    simp only [State.anyOverrun, Bool.or_eq_true]
    constructor
    · rintro ((h | h) | h)
      exacts [⟨.c0, h⟩, ⟨.c1, h⟩, ⟨.c2, h⟩]
    · rintro ⟨n, h⟩
      cases n
      exacts [.inl (.inl h), .inl (.inr h), .inr h]
  simp [hover, Channel.overruns, Channel.atMatch, and_assoc]

/-- What raises each error in a step (10_state.md R47). -/
def Action.raises (a : Action) (s : State) : ErrKind → Prop
  | .ill => a = .illegal
  | .badCh => ∃ note, a = .command (.playNote 3 note)
  | .badNote => ∃ ch note, a = .command (.playNote ch note) ∧ ch ≠ 3 ∧ note ≠ noteNone ∧ s.cfg.noteCount ≤ note.toNat
  | .ovr => a = .tmrTick ∧ s.power = true ∧ s.anyOverrun = true

theorem StepRow.errBit {s t : State} {a : Action} (r : StepRow s a t) (k : ErrKind) :
    t.errBit k = true ↔ a ≠ .reset ∧ (s.errBit k = true ∨ a.raises s k) := by
  unfold State.errBit
  cases r with
  | reset => simp
  | tmrTick =>
    by_cases h : s.power = true ∧ s.anyOverrun = true
    · cases k <;> simp [Action.raises, errWith_bit, h]
    · cases k <;> simp [Action.raises, h]
  | start m note hnote hlt => cases k <;> simp [Action.raises, hlt]
  | badNote m note hnote hle => cases k <;> simp [Action.raises, errWith_bit, hnote, hle]
  | _ => cases k <;> simp [Action.raises, errWith_bit]

/-! ### The engine does not read `RESP` -/

/-- The state with another response stream. -/
def State.withResp (s : State) (q : List Word) : State := { s with resp := q }

/-- The state without what a reading of `RESP` gives: the stream and whether the host waits. -/
def State.sansResponses (s : State) : State := { s with resp := [], waiting := false }

@[simp] theorem State.withResp_sansResponses (s : State) (q : List Word) :
    (s.withResp q).sansResponses = s.sansResponses := rfl

theorem nextAction_withResp (s : State) (q : List Word) : (s.withResp q).nextAction = s.nextAction := rfl

theorem dropTurn_withResp (s : State) (q : List Word) : (s.withResp q).dropTurn = s.dropTurn.withResp q := by
  obtain ⟨_, _, _, _, _, _, _, _, _, _, _, _, turns, _⟩ := s
  cases turns <;> rfl

theorem advance_withResp (s : State) (q : List Word) : (s.withResp q).advance = s.advance.withResp q := by
  have hturn : (s.withResp q).nextTurn = s.nextTurn := rfl
  simp only [State.advance, hturn, dropTurn_withResp]
  cases s.nextTurn <;> rfl

@[simp] theorem playNote_withResp (ch : BitVec 2) (note : BitVec 8) (s : State) (q : List Word) :
    playNote ch note (s.withResp q) = (playNote ch note s).withResp q := by
  have hoperand : noteOperand (s.withResp q).cfg note = noteOperand s.cfg note := rfl
  unfold playNote
  cases chanOfField ch with
  | none => rfl
  | some n =>
    simp only [hoperand]
    cases noteOperand s.cfg note <;> cases n <;> rfl

@[simp] theorem tmrTick_withResp (s : State) (q : List Word) : tmrTick (s.withResp q) = (tmrTick s).withResp q := by
  simp only [tmrTick, apply_ite (State.withResp · q)]
  rfl

@[simp] theorem pwmTick_withResp (s : State) (q : List Word) : pwmTick (s.withResp q) = (pwmTick s).withResp q := by
  simp only [pwmTick, apply_ite (State.withResp · q)]
  rfl

@[simp] theorem chService_withResp (n : ChanId) (s : State) (q : List Word) :
    chService n (s.withResp q) = (chService n s).withResp q := by
  simp only [chService, apply_ite (State.withResp · q)]
  cases n <;> rfl

/-- What an action makes of everything but the responses does not depend on the responses (40_commands.md R119). -/
theorem perform_withResp {a : Action} {s t t' : State} {q : List Word} (h : perform a s = .next t)
    (h' : perform a (s.withResp q) = .next t') : t'.sansResponses = t.sansResponses := by
  cases a with
  | command i =>
    cases i with
    | enableOutput e => obtain rfl | rfl := bit_cases e <;> cases h <;> cases h' <;> rfl
    | playNote ch note => cases h; cases h'; simp
    | _ => cases h; cases h'; rfl
  | tmrTick | pwmTick | service => cases h; cases h'; simp
  | _ => cases h; cases h'; rfl

/-! ### The `STATUS` view -/

/-- Each field of the `STATUS` view is at its place (10_state.md R45). -/
theorem State.statusWord_layout (s : State) :
    (∀ n : ChanId, s.statusWord.getLsbD n.idx = (s.chan n).chEn) ∧
    (∀ n : ChanId, s.statusWord.getLsbD (3 + n.idx) = s.lvl n) ∧
    s.statusWord.extractLsb' 6 2 = s.vol ∧
    s.statusWord.getLsbD 8 = s.power ∧
    (∀ n : ChanId, s.statusWord.getLsbD (9 + n.idx) = (s.chan n).pend) ∧
    s.statusWord.extractLsb' 12 4 = s.err := by
  refine ⟨fun n => ?_, fun n => ?_, ?_, ?_, fun n => ?_, ?_⟩
  · rw [← chanMask_bit Channel.chEn]
    cases n <;> simp [State.statusWord, placeAt, ChanId.idx]
  · cases n <;> simp [State.statusWord, placeAt, ChanId.idx, State.lvl]
  · ext i hi
    interval_cases i <;> simp [State.statusWord, placeAt, State.vol]
  · simp [State.statusWord, placeAt]
  · rw [← chanMask_bit Channel.pend]
    cases n <;> simp [State.statusWord, placeAt, ChanId.idx]
  · ext i hi
    interval_cases i <;> simp [State.statusWord, placeAt]

/-! ### The invariants of one channel -/

section
variable {s t : State} {n : ChanId}

theorem ChanInv.of_silent (hen : (t.chan n).chEn = false) (hcnt : (t.chan n).cnt = 0) (hpend : (t.chan n).pend = false)
    (hlvl : t.lvl n = false) : ChanInv t n where
  silent _ := ⟨hlvl, hcnt, hpend⟩
  counting h := by simp [hen] at h
  pending h := by simp [hpend] at h

theorem ChanInv.of_started {p : BitVec 16} (hc : t.chan n = Channel.start p) (hp : p ≠ 0) : ChanInv t n where
  silent h := by simp [hc] at h
  counting _ := by
    have : p.toNat ≠ 0 := fun h => hp (BitVec.eq_of_toNat_eq h)
    simp [hc]
    omega
  pending h := by simp [hc] at h

/-- A channel that a step leaves alone keeps its invariants, unless the power goes. -/
theorem ChanInv.of_kept (h : ChanInv s n) (hc : t.chan n = s.chan n) (hlvl : t.lvl n = s.lvl n)
    (hp : s.power = true → t.power = true) : ChanInv t n where
  silent := by rw [hc, hlvl]; exact h.silent
  counting := by rw [hc]; exact h.counting
  pending := by rw [hc]; exact fun hpend => (h.pending hpend).imp_right hp

/-- A count below its period stays below it, as a match sets it to 0 (41_oscillators.md R140). -/
theorem ChanInv.of_tick (h : ChanInv s n) (hc : t.chan n = (s.chan n).tick) (hlvl : t.lvl n = s.lvl n)
    (ht : t.power = true) : ChanInv t n := by
  obtain ⟨-, hk⟩ | ⟨hen, hm, hk⟩ | ⟨hen, hm, hk⟩ := (s.chan n).tick_cases
  · exact h.of_kept (hc.trans hk) hlvl fun _ => ht
  · obtain ⟨hper, -⟩ := h.counting hen
    exact ⟨by simp [hc, hen], by simpa [hc, hk] using fun _ => ⟨hper, hper⟩, by simp [hc, ht, hen]⟩
  · obtain ⟨hper, hlt⟩ := h.counting hen
    have hnext : ((s.chan n).cnt + 1).toNat < (s.chan n).period.toNat := by
      bv_omega
    exact ⟨by simp [hc, hen], by simpa [hc, hk] using fun _ => ⟨hper, hnext⟩, by simp [hc, ht, hen]⟩

/-- A service finds the channel sounding, as its match was pending (10_state.md R50.3). -/
theorem ChanInv.of_service (h : ChanInv s n) (hpend : (s.chan n).pend = true)
    (hc : t.chan n = { s.chan n with pend := false }) : ChanInv t n := by
  obtain ⟨hen, -⟩ := h.pending hpend
  exact ⟨by simp [hc, hen], by simpa [hc] using h.counting, by simp [hc]⟩

end

/-! ### Every step keeps the invariants -/

section
variable {s t : State} {a : Action}

theorem StepRow.keeps_chanInv (r : StepRow s a t) (hwf : s.cfg.wf = true) {n : ChanId} (h : ChanInv s n) :
    ChanInv t n := by
  have hlvl := r.lvl n
  have hpower := r.power
  obtain ⟨rfl, hc⟩ | ⟨-, hs, -, hc⟩ | ⟨i, -, hi, -, hc⟩ | ⟨rfl, hp, hc⟩ | ⟨rfl, hc⟩ | ⟨hs, -, -, hn, -, hc⟩ :=
    r.chan_cases n
  · exact .of_silent (by simp [hc, Channel.reset]) (by simp [hc, Channel.reset]) (by simp [hc, Channel.reset])
      (by simpa [Action.silencesAll] using hlvl)
  · exact .of_silent (by simp [hc]) (by simp [hc]) (by simp [hc]) (by simpa [hs] using hlvl)
  · exact .of_started hc (Config.wf_period_ne_zero hwf (Action.lt_noteCount_of_noteStarted hi))
  · exact h.of_tick hc (by simpa [Action.silencesAll, Action.silences] using hlvl)
      (by simpa [Action.silencesAll, hp] using hpower)
  · by_cases hpend : (s.chan n).pend = true
    · exact h.of_service hpend hc
    · refine h.of_kept (hc.trans ?_) (by simpa [Action.silencesAll, Action.silences, hpend] using hlvl)
        (fun hp => by simpa [Action.silencesAll, hp] using hpower)
      rw [← Bool.eq_false_iff.mpr hpend]
  · obtain ⟨hall, -⟩ := Bool.or_eq_false_iff.mp hs
    exact h.of_kept hc (by simpa [hs, hn] using hlvl) (fun hp => by simpa [hall, hp] using hpower)

/-- The carrier counts only while the engine runs, and what stops the engine clears it (10_state.md R50.5). -/
theorem StepRow.keeps_stoppedCarrier (r : StepRow s a t) (h : s.power = false → s.pwmCnt = 0) (ht : t.power = false) :
    t.pwmCnt = 0 := by
  rw [r.power] at ht
  rw [r.pwmCnt]
  by_cases hall : a.silencesAll = true
  · rw [if_pos hall]
  · rw [if_neg hall] at ht ⊢
    split at ht
    · cases ht
    · simp [ht, h ht]

theorem StepRow.keeps_inv (r : StepRow s a t) (h : s.Inv) : t.Inv where
  cfgWf := by rw [r.cfg]; exact h.cfgWf
  chans n := r.keeps_chanInv h.cfgWf (h.chans n)
  dutyTracks := r.duty_tracks h.dutyTracks
  stoppedCarrier := r.keeps_stoppedCarrier h.stoppedCarrier

end

theorem State.stepped_cfg (s : State) : s.stepped.cfg = s.cfg := by
  unfold State.stepped
  split
  · next t h => exact (stepRow_of_step h).cfg
  · rfl
  · rfl

theorem State.resetUnder_inv {c : Config} (h : c.wf = true) : (State.resetUnder c).Inv where
  cfgWf := h
  chans n := by
    have hlvl : (State.resetUnder c).lvl n = false := by simp [State.lvl, mixLvl, State.resetUnder, volReset]
    cases n <;> exact .of_silent rfl rfl rfl hlvl
  dutyTracks := rfl
  stoppedCarrier _ := rfl

/-! ### The statements -/

/-- Settles O57: each row of a step keeps the invariants. -/
theorem everyStepKeepsTheInvariants : Obligations.EveryStepKeepsTheInvariants :=
  fun _ _ hinv h => (stepRow_of_step h).keeps_inv hinv

/-- Settles O14, by the rows of a step, and by the tests of `POWER` in the pin and in the two ticks. -/
theorem powerAfterStep : Obligations.PowerAfterStep :=
  ⟨fun _ _ h => (stepRow_of_step h).power, fun s h => by simp [State.pwmOut, tmrTick, pwmTick, h]⟩

/-- Settles O15, by the rows of a step. -/
theorem levelAfterStep : Obligations.LevelAfterStep := fun _ _ n h => (stepRow_of_step h).lvl n

/-- Settles O16, by the rows of a step. -/
theorem volumeAfterStep : Obligations.VolumeAfterStep := fun _ _ h => (stepRow_of_step h).vol

/-- Settles O18, by what a step can do to one channel's registers. -/
theorem channelEnableAfterStep : Obligations.ChannelEnableAfterStep := fun _ _ n h => (stepRow_of_step h).chEn n

/-- Settles O19, by what a step can do to one channel's registers. -/
theorem periodAfterStep : Obligations.PeriodAfterStep := fun _ _ n h => (stepRow_of_step h).period n

/-- Settles O20, by what a step can do to one channel's registers. -/
theorem counterAfterStep : Obligations.CounterAfterStep := fun _ _ n h => (stepRow_of_step h).cnt n

/-- Settles O21, by what a step can do to one channel's registers. -/
theorem pendingAfterStep : Obligations.PendingAfterStep := fun _ _ n h => (stepRow_of_step h).pend n

/-- Settles O22, by the rows of a step. -/
theorem carrierAfterStep : Obligations.CarrierAfterStep := fun _ _ h => (stepRow_of_step h).pwmCnt

/-- Settles O23: one condition for each bit of `ERR`. -/
theorem errorBitsAfterStep : Obligations.ErrorBitsAfterStep := by
  intro s t h
  have r := stepRow_of_step h
  refine ⟨r.errBit .ill, r.errBit .badCh, r.errBit .badNote, ?_⟩
  rw [← s.anyOverrun_iff]
  exact r.errBit .ovr

/-- Settles O24, by the rows of a step, and as no operation but a reading depends on the responses. -/
theorem responsesAfterStep : Obligations.ResponsesAfterStep := by
  refine ⟨fun _ _ h => (stepRow_of_step h).resp, fun s q t t' h h' => ?_⟩
  have hperform : perform s.nextAction (s.advance.withResp q) = .next t' := by
    rw [← advance_withResp, ← nextAction_withResp s q]
    exact h'
  exact perform_withResp h hperform

/-- Settles O47: neither action resets, silences, starts, ticks or serves another channel. -/
theorem otherChannelsUntouched : Obligations.OtherChannelsUntouched := by
  intro s t n m h hmn ha
  have hchan := (stepRow_of_step h).chan_cases m
  have hlvl := (stepRow_of_step h).lvl m
  obtain ha | ⟨note, ha⟩ := ha
  · exact ⟨by simpa [ha, hmn.symm, Action.silencesAll, Action.silences, Action.noteStarted] using hchan,
      by simpa [ha, hmn.symm, Action.silencesAll, Action.silences] using hlvl⟩
  · exact ⟨by simpa [ha, hmn.symm, Action.silencesAll, Action.silences] using hchan,
      by simpa [ha, hmn.symm, Action.silencesAll, Action.silences] using hlvl⟩

/-- Settles O58, by induction on the number of steps. -/
theorem configurationNeverChanges : Obligations.ConfigurationNeverChanges := by
  intro s k
  induction k with
  | zero => rfl
  | succ k ih => rw [State.after_succ, State.stepped_cfg, ih]

/-- Settles O31: the word is the `STATUS` view. -/
theorem getStatusResult : Obligations.GetStatusResult := fun s => ⟨s.statusWord, rfl, s.statusWord_layout⟩

/-- Settles O56, for any well-formed configuration, of which the hardware's own is one. -/
theorem invariantsAtReset : Obligations.InvariantsAtReset :=
  ⟨fun _ hwf => State.resetUnder_inv hwf, State.resetUnder_inv Config.hw_wf⟩

end Sys2Proof.Machine

/-! SUPPORT. The proofs for the statements of 20_memory.md: the byte link, read back word by word from the front of the
list, and the two queries, whose views a response leaves unchanged. -/

namespace Sys2Proof

/-! ### The byte link -/

/-- The two bytes of a word do not overlap and cover it (20_memory.md R74). -/
theorem placeAt_or_bytes (w : Word) : placeAt 8 (w.extractLsb' 8 8) ||| placeAt 0 (w.extractLsb' 0 8) = w := by
  ext i hi
  interval_cases i <;> simp [placeAt]

theorem wordsOfBytes_bytesOfWord_append (w : Word) (bs : List Byte) :
    wordsOfBytes (bytesOfWord w ++ bs) = (w :: (wordsOfBytes bs).1, (wordsOfBytes bs).2) := by
  simp [bytesOfWord, wordsOfBytes, placeAt_or_bytes]

/-- Whole words sent first are read back first, and leave the rest of the link as if it stood alone. -/
theorem wordsOfBytes_flatMap_append (ws : List Word) (bs : List Byte) :
    wordsOfBytes (ws.flatMap bytesOfWord ++ bs) = (ws ++ (wordsOfBytes bs).1, (wordsOfBytes bs).2) := by
  induction ws with
  | nil => rfl
  | cons w ws ih => rw [List.flatMap_cons, List.append_assoc, wordsOfBytes_bytesOfWord_append, ih, List.cons_append]

/-- Settles O8: what follows the whole words is nothing, or one byte, which makes no word. -/
theorem byteLinkRoundTrip : Obligations.ByteLinkRoundTrip :=
  ⟨fun _ => rfl, fun ws => by simpa [wordsOfBytes] using wordsOfBytes_flatMap_append ws [],
    fun ws b => by simpa [wordsOfBytes] using wordsOfBytes_flatMap_append ws [b]⟩

end Sys2Proof

namespace Sys2Proof.Machine

/-! ### The two queries -/

@[simp] theorem State.respond_statusWord (s : State) (w : Word) : (s.respond w).statusWord = s.statusWord := rfl

theorem State.respond_respond (s : State) (w v : Word) :
    (s.respond w).respond v = { s with resp := s.resp ++ [w, v] } := by
  simp [State.respond]

/-- Settles O33: the view that each query answers with does not read the response stream (20_memory.md R77). -/
theorem queriesRepeat : Obligations.QueriesRepeat := by
  rintro i (rfl | rfl) s t u ht hu
  · cases ht
    cases hu
    exact ⟨(mixVol s.mix).setWidth 16, rfl, by rw [State.respond_mix, State.respond_respond]⟩
  · cases ht
    cases hu
    exact ⟨s.statusWord, rfl, by rw [State.respond_statusWord, State.respond_respond]⟩

end Sys2Proof.Machine

/-! SUPPORT. The proofs for the statements of 30_encoding.md. A word carries a command when its opcode, its zero reserved
bits and its operand fields are the command's (R91). The decoder answers a command exactly when the word carries it, and so
does the encoder; the round trips, the opcode map and the counts follow from these two equivalences. -/

namespace Sys2Proof

/-! ### The word that carries a command -/

/-- The fields of the command's format, read from the word: the opcode, the reserved bits at 0, and each operand
(30_encoding.md R91). -/
def Instr.CarriedBy (w : Word) : Instr → Prop
  | .enableOutput e => opField w = 1#4 ∧ w.extractLsb' 1 11 = 0#11 ∧ w.extractLsb' 0 1 = e
  | .playNote ch note =>
    opField w = 2#4 ∧ w.extractLsb' 10 2 = 0#2 ∧ w.extractLsb' 8 2 = ch ∧ w.extractLsb' 0 8 = note
  | .setVolume v => opField w = 3#4 ∧ w.extractLsb' 2 10 = 0#10 ∧ w.extractLsb' 0 2 = v
  | .getVolume => opField w = 4#4 ∧ w.extractLsb' 0 12 = 0#12
  | .getStatus => opField w = 5#4 ∧ w.extractLsb' 0 12 = 0#12

/-! ### The decoder -/

theorem unlessReserved_eq_command {z : Bool} {i j : Instr} :
    unlessReserved z i = .command j ↔ z = true ∧ i = j := by
  cases z <;> simp [unlessReserved]

theorem unlessReserved_illegal {z : Bool} {i : Instr} :
    (∃ why, unlessReserved z i = .illegal why) ↔ z = false := by
  cases z <;> simp [unlessReserved]

theorem opcode_cases (op : BitVec 4) :
    op = 1#4 ∨ op = 2#4 ∨ op = 3#4 ∨ op = 4#4 ∨ op = 5#4 ∨ op = 0#4 ∨ 6#4 ≤ op := by
  revert op; decide

section
variable {w : Word}

theorem decode_enableOutput_opcode (h : opField w = 1#4) :
    decode w = unlessReserved (w.extractLsb' 1 11 = 0#11) (.enableOutput (w.extractLsb' 0 1)) := by
  simp [decode, h]

theorem decode_playNote_opcode (h : opField w = 2#4) : decode w =
    unlessReserved (w.extractLsb' 10 2 = 0#2) (.playNote (w.extractLsb' 8 2) (w.extractLsb' 0 8)) := by
  simp [decode, h]

theorem decode_setVolume_opcode (h : opField w = 3#4) :
    decode w = unlessReserved (w.extractLsb' 2 10 = 0#10) (.setVolume (w.extractLsb' 0 2)) := by
  simp [decode, h]

theorem decode_getVolume_opcode (h : opField w = 4#4) :
    decode w = unlessReserved (w.extractLsb' 0 12 = 0#12) .getVolume := by
  simp [decode, h]

theorem decode_getStatus_opcode (h : opField w = 5#4) :
    decode w = unlessReserved (w.extractLsb' 0 12 = 0#12) .getStatus := by
  simp [decode, h]

theorem decode_unassigned_opcode (h : opField w = 0#4 ∨ 6#4 ≤ opField w) : decode w = .illegal .unassignedOpcode := by
  have hop : ∀ op : BitVec 4, op = 0#4 ∨ 6#4 ≤ op →
      op ≠ 1#4 ∧ op ≠ 2#4 ∧ op ≠ 3#4 ∧ op ≠ 4#4 ∧ op ≠ 5#4 := by decide
  obtain ⟨h1, h2, h3, h4, h5⟩ := hop _ h
  simp [decode, h1, h2, h3, h4, h5]

theorem decode_of_carriedBy {i : Instr} (h : i.CarriedBy w) : decode w = .command i := by
  cases i with
  | enableOutput e =>
    obtain ⟨hop, hres, rfl⟩ := h
    simp [decode_enableOutput_opcode hop, unlessReserved, hres]
  | playNote ch note =>
    obtain ⟨hop, hres, rfl, rfl⟩ := h
    simp [decode_playNote_opcode hop, unlessReserved, hres]
  | setVolume v =>
    obtain ⟨hop, hres, rfl⟩ := h
    simp [decode_setVolume_opcode hop, unlessReserved, hres]
  | getVolume =>
    obtain ⟨hop, hres⟩ := h
    simp [decode_getVolume_opcode hop, unlessReserved, hres]
  | getStatus =>
    obtain ⟨hop, hres⟩ := h
    simp [decode_getStatus_opcode hop, unlessReserved, hres]

theorem carriedBy_of_decode {i : Instr} (h : decode w = .command i) : i.CarriedBy w := by
  obtain hop | hop | hop | hop | hop | hop := opcode_cases (opField w)
  · rw [decode_enableOutput_opcode hop, unlessReserved_eq_command] at h
    obtain ⟨hres, rfl⟩ := h
    exact ⟨hop, of_decide_eq_true hres, rfl⟩
  · rw [decode_playNote_opcode hop, unlessReserved_eq_command] at h
    obtain ⟨hres, rfl⟩ := h
    exact ⟨hop, of_decide_eq_true hres, rfl, rfl⟩
  · rw [decode_setVolume_opcode hop, unlessReserved_eq_command] at h
    obtain ⟨hres, rfl⟩ := h
    exact ⟨hop, of_decide_eq_true hres, rfl⟩
  · rw [decode_getVolume_opcode hop, unlessReserved_eq_command] at h
    obtain ⟨hres, rfl⟩ := h
    exact ⟨hop, of_decide_eq_true hres⟩
  · rw [decode_getStatus_opcode hop, unlessReserved_eq_command] at h
    obtain ⟨hres, rfl⟩ := h
    exact ⟨hop, of_decide_eq_true hres⟩
  · rw [decode_unassigned_opcode hop] at h
    cases h

end

/-! ### The encoder -/

/-- A field above the `lo` lowest bits does not overlap them, so that joining is adding (00_scope.md R14). -/
theorem toNat_or_placeAt_zero {n : Nat} {u : Word} {v : BitVec n} (lo : Nat) (hn : n ≤ lo) (hlo : lo ≤ 16)
    (hu : 2 ^ lo ∣ u.toNat) : (u ||| placeAt 0 v).toNat = u.toNat + v.toNat := by
  obtain ⟨a, ha⟩ := hu
  have hv : v.toNat < 2 ^ lo := v.isLt.trans_le (Nat.pow_le_pow_right (by decide) hn)
  have hplace : (placeAt 0 v).toNat = v.toNat := by
    simp [placeAt, Nat.mod_eq_of_lt (hv.trans_le (Nat.pow_le_pow_right (by decide) hlo))]
  rw [BitVec.toNat_or, hplace, ha, ← Nat.two_pow_add_eq_or_of_lt hv]

theorem two_pow_dvd_opcode (op : BitVec 4) : 2 ^ 12 ∣ (placeAt 12 op).toNat := by
  revert op; decide

/-! R99's sum for the word of each command. -/

theorem toNat_encode_enableOutput (e : BitVec 1) : (encode (.enableOutput e)).toNat = 0x1000 + e.toNat :=
  toNat_or_placeAt_zero 12 (by decide) (by decide) (two_pow_dvd_opcode _)

theorem toNat_encode_playNote (ch : BitVec 2) (note : BitVec 8) :
    (encode (.playNote ch note)).toNat = 0x2000 + (ch.toNat <<< 8) + note.toNat := by
  have hhigh : (placeAt 12 0b0010#4 ||| placeAt 8 ch).toNat = 0x2000 + (ch.toNat <<< 8) := by
    revert ch; decide
  have hdvd : 2 ^ 8 ∣ (placeAt 12 0b0010#4 ||| placeAt 8 ch).toNat := by
    omega
  rw [encode, toNat_or_placeAt_zero 8 (by decide) (by decide) hdvd, hhigh]

theorem toNat_encode_setVolume (v : BitVec 2) : (encode (.setVolume v)).toNat = 0x3000 + v.toNat :=
  toNat_or_placeAt_zero 12 (by decide) (by decide) (two_pow_dvd_opcode _)

theorem toNat_encode_getVolume : (encode .getVolume).toNat = 0x4000 := rfl

theorem toNat_encode_getStatus : (encode .getStatus).toNat = 0x5000 := rfl

/-- Each field of a word is its digits between two powers of two, and `encode` is the sum of the fields. -/
theorem encode_eq_iff_carriedBy {i : Instr} {w : Word} : encode i = w ↔ i.CarriedBy w := by
  rw [← BitVec.toNat_inj]
  cases i <;> simp only [Instr.CarriedBy, opField, ← BitVec.toNat_inj, BitVec.extractLsb'_toNat,
    toNat_encode_enableOutput, toNat_encode_playNote, toNat_encode_setVolume, toNat_encode_getVolume,
    toNat_encode_getStatus] <;> bv_omega

theorem decode_eq_command_iff {i : Instr} {w : Word} : decode w = .command i ↔ encode i = w :=
  ⟨fun h => encode_eq_iff_carriedBy.mpr (carriedBy_of_decode h),
    fun h => decode_of_carriedBy (encode_eq_iff_carriedBy.mp h)⟩

/-- Settles O2: the encoder's word carries the command. -/
theorem decodeOfEncode : Obligations.DecodeOfEncode := fun _ => decode_eq_command_iff.mpr rfl

/-- Settles O3: a word that carries the command is the encoder's. -/
theorem encodeOfDecode : Obligations.EncodeOfDecode := fun _ _ => decode_eq_command_iff.mp

theorem encode_injective : Function.Injective encode := fun i j h => by
  have hij := decodeOfEncode j
  rw [← h, decodeOfEncode i] at hij
  exact Decoded.command.inj hij

/-! ### The opcode map -/

/-- Of a masked word, a field that the mask covers is the word's own. -/
theorem extractLsb'_eq_of_and_eq {w m v : Word} (lo n : Nat) (h : w &&& m = v)
    (hm : m.extractLsb' lo n = BitVec.allOnes n) : w.extractLsb' lo n = v.extractLsb' lo n := by
  rw [← h, BitVec.extractLsb'_and, hm, BitVec.and_allOnes]

/-- A word that matches a row carries a command of the row: the mask covers the opcode and the reserved bits, and the
operands may be anything (30_encoding.md R94). -/
theorem carriedBy_of_matches {w : Word} {r : OpcodeRow} (hr : r ∈ opcodeRows) (h : w &&& r.mask = r.value) :
    ∃ i : Instr, i.CarriedBy w ∧ i.row = r := by
  have field := fun lo n => extractLsb'_eq_of_and_eq lo n h
  simp only [opcodeRows, List.mem_cons, List.not_mem_nil, or_false] at hr
  obtain rfl | rfl | rfl | rfl | rfl := hr
  · exact ⟨.enableOutput _, ⟨field 12 4 (by decide), field 1 11 (by decide), rfl⟩, rfl⟩
  · exact ⟨.playNote _ _, ⟨field 12 4 (by decide), field 10 2 (by decide), rfl, rfl⟩, rfl⟩
  · exact ⟨.setVolume _, ⟨field 12 4 (by decide), field 2 10 (by decide), rfl⟩, rfl⟩
  · exact ⟨.getVolume, ⟨field 12 4 (by decide), field 0 12 (by decide)⟩, rfl⟩
  · exact ⟨.getStatus, ⟨field 12 4 (by decide), field 0 12 (by decide)⟩, rfl⟩

theorem encode_matchesRow (i : Instr) : Laws.MatchesRow.Statement i := by
  cases i with
  | enableOutput e => exact Laws.MatchesRow.enableOutput e
  | playNote ch note => exact Laws.MatchesRow.playNote ch note
  | setVolume v => exact Laws.MatchesRow.setVolume v
  | getVolume => exact Laws.MatchesRow.getVolume
  | getStatus => exact Laws.MatchesRow.getStatus

theorem row_mem_and_matches_of_decode {w : Word} {i : Instr} (h : decode w = .command i) :
    i.row ∈ opcodeRows ∧ w &&& i.row.mask = i.row.value := by
  obtain rfl := decode_eq_command_iff.mp h
  obtain ⟨hhit, hmem⟩ := encode_matchesRow i
  exact ⟨hmem, eq_of_beq hhit⟩

theorem decode_of_matches {w : Word} {r : OpcodeRow} (hr : r ∈ opcodeRows) (h : w &&& r.mask = r.value) :
    ∃ i, decode w = .command i ∧ i.row = r := by
  obtain ⟨i, hi, hrow⟩ := carriedBy_of_matches hr h
  exact ⟨i, decode_of_carriedBy hi, hrow⟩

theorem illegal_iff_not_command {w : Word} : (∃ why, decode w = .illegal why) ↔ ¬∃ i, decode w = .command i := by
  cases decode w <;> simp

/-- Settles O4: one row at most, because the word decodes to one command and each row it matches is that command's. -/
theorem opcodeMapIsDecoder : Obligations.OpcodeMapIsDecoder := by
  refine fun w => ⟨fun i h => ?_, fun r hr h => decode_of_matches hr h, fun r hr r' hr' h h' => ?_, ?_⟩
  · obtain ⟨hmem, hmatch⟩ := row_mem_and_matches_of_decode h
    have hcarried := carriedBy_of_decode h
    refine ⟨hmem, hmatch, ?_⟩
    cases i with
    | enableOutput e =>
      obtain ⟨-, -, he⟩ := hcarried
      exact he.symm
    | playNote ch note =>
      obtain ⟨-, -, hch, hnote⟩ := hcarried
      exact ⟨hch.symm, hnote.symm⟩
    | setVolume v =>
      obtain ⟨-, -, hv⟩ := hcarried
      exact hv.symm
    | getVolume => trivial
    | getStatus => trivial
  · obtain ⟨i, hi, rfl⟩ := decode_of_matches hr h
    obtain ⟨j, hj, rfl⟩ := decode_of_matches hr' h'
    rw [hi] at hj
    cases hj
    rfl
  · rw [illegal_iff_not_command]
    constructor
    · rintro hnone ⟨i, hi⟩
      obtain ⟨hmem, hmatch⟩ := row_mem_and_matches_of_decode hi
      exact hnone _ hmem hmatch
    · intro hnone r hr h
      obtain ⟨i, hi, -⟩ := decode_of_matches hr h
      exact hnone ⟨i, hi⟩

/-! ### The counts -/

theorem card_bitVec (n : Nat) : Nat.card (BitVec n) = 2 ^ n :=
  Nat.card_eq_of_equiv_fin BitVec.equivFin.toEquiv

/-- A command is one of the five forms with its operands. -/
def Instr.equivOperands : Instr ≃ BitVec 1 ⊕ (BitVec 2 × BitVec 8) ⊕ BitVec 2 ⊕ Unit ⊕ Unit where
  toFun
    | .enableOutput e => .inl e
    | .playNote ch note => .inr (.inl (ch, note))
    | .setVolume v => .inr (.inr (.inl v))
    | .getVolume => .inr (.inr (.inr (.inl ())))
    | .getStatus => .inr (.inr (.inr (.inr ())))
  invFun
    | .inl e => .enableOutput e
    | .inr (.inl (ch, note)) => .playNote ch note
    | .inr (.inr (.inl v)) => .setVolume v
    | .inr (.inr (.inr (.inl ()))) => .getVolume
    | .inr (.inr (.inr (.inr ()))) => .getStatus
  left_inv i := by cases i <;> rfl
  right_inv o := by rcases o with _ | _ | _ | _ | _ <;> rfl

theorem card_instr : Nat.card Instr = 1032 := by
  simp only [Nat.card_congr Instr.equivOperands, Nat.card_sum, Nat.card_prod, card_bitVec, Nat.card_unique]
  rfl

/-- As many words decode to a command of a form as the form has operand values: each command has its one word. -/
theorem card_words_of_form {α : Type} (form : α → Instr) (hform : Function.Injective form) :
    Nat.card { w : Word // ∃ a, decode w = .command (form a) } = Nat.card α := by
  simp only [decode_eq_command_iff]
  exact Nat.card_range_of_injective (encode_injective.comp hform)

theorem card_illegal_words :
    Nat.card { w : Word // ∃ why, decode w = .illegal why } = 2 ^ 16 - Nat.card Instr := by
  classical
  have hlegal := card_words_of_form id Function.injective_id
  have hsplit := Nat.card_congr (Equiv.sumCompl fun w : Word => ∃ i, decode w = .command i)
  rw [Nat.card_sum, card_bitVec] at hsplit
  simp only [id] at hlegal
  simp only [illegal_iff_not_command]
  omega

/-- Settles O5: each form's words are counted by its operands, and the illegal words are the rest. -/
theorem decodableWordCounts : Obligations.DecodableWordCounts := by
  refine ⟨?_, ?_, ?_, ?_, ?_, ?_, ?_⟩
  · rw [card_words_of_form _ fun _ _ h => Instr.enableOutput.inj h, card_bitVec]
    rfl
  · have hpairs := card_words_of_form (fun p : BitVec 2 × BitVec 8 => .playNote p.1 p.2)
      fun p q h => Prod.ext (Instr.playNote.inj h).1 (Instr.playNote.inj h).2
    simp only [Prod.exists, Nat.card_prod, card_bitVec] at hpairs
    exact hpairs
  · rw [card_words_of_form _ fun _ _ h => Instr.setVolume.inj h, card_bitVec]
    rfl
  · simpa using card_words_of_form (fun _ : Unit => .getVolume) (Function.injective_of_subsingleton _)
  · simpa using card_words_of_form (fun _ : Unit => .getStatus) (Function.injective_of_subsingleton _)
  · rw [← card_instr]
    exact card_words_of_form id Function.injective_id
  · rw [card_illegal_words, card_instr]
    rfl

/-! ### The illegal words -/

/-- Which words are illegal (30_encoding.md R97). -/
theorem illegal_iff_reserved (w : Word) : (∃ why, decode w = .illegal why) ↔
    opField w = 0b0000#4 ∨ 0b0110#4 ≤ opField w ∨
    (opField w = 0b0001#4 ∧ w.extractLsb' 1 11 ≠ 0#11) ∨
    (opField w = 0b0010#4 ∧ w.extractLsb' 10 2 ≠ 0#2) ∨
    (opField w = 0b0011#4 ∧ w.extractLsb' 2 10 ≠ 0#10) ∨
    ((opField w = 0b0100#4 ∨ opField w = 0b0101#4) ∧ w.extractLsb' 0 12 ≠ 0#12) := by
  obtain hop | hop | hop | hop | hop | hop := opcode_cases (opField w)
  · simp [decode_enableOutput_opcode hop, unlessReserved_illegal, hop]
  · simp [decode_playNote_opcode hop, unlessReserved_illegal, hop]
  · simp [decode_setVolume_opcode hop, unlessReserved_illegal, hop]
  · simp [decode_getVolume_opcode hop, unlessReserved_illegal, hop]
  · simp [decode_getStatus_opcode hop, unlessReserved_illegal, hop]
  · exact iff_of_true ⟨_, decode_unassigned_opcode hop⟩ (hop.imp_right .inl)

open Machine in
/-- An illegal word's step writes the error bit and nothing else of the engine (40_commands.md R120). -/
theorem step_of_illegal_word {s : State} {ts : List Turn} {w : Word} {ws : List Word} {why : IllegalWord}
    (hturns : s.turns = .host :: ts) (hwait : s.waiting = false) (hport : s.port = w :: ws)
    (hw : decode w = .illegal why) : step s = .next { s with turns := ts, port := ws, err := errWith .ill s.err } := by
  have haction : s.nextAction = .illegal := by simp [State.nextAction_of_turns hturns, hwait, hport, hostAction, hw]
  have hadvance : s.advance = { s with turns := ts, port := ws } := by
    simp [State.advance_of_turns hturns, hwait, hport]
  rw [step, haction, hadvance]
  rfl

/-- Settles O6: the decoder's branches give the illegal words, and their step raises `ERR.ILL` once the word and the turn are
gone. -/
theorem illegalWordsAreReserved : Obligations.IllegalWordsAreReserved :=
  ⟨illegal_iff_reserved, ⟨_, decode_unassigned_opcode (.inl (by decide))⟩, fun _ _ _ _ _ => step_of_illegal_word⟩

/-! ### The assembler -/

theorem assemble_eq_ite {l : AsmLine} {fits : Prop} [Decidable fits] {ws : List Word} (hfits : l.wf = true ↔ fits)
    (hws : fits → l.words = ws) : assemble l = if fits then some ws else none := by
  by_cases h : fits
  · rw [assemble, if_pos (hfits.mpr h), if_pos h, hws h]
  · rw [assemble, if_neg fun hl => h (hfits.mp hl), if_neg h]

theorem ofNat_eq_encode {i : Instr} {n : Nat} (h : (encode i).toNat = n) : BitVec.ofNat 16 n = encode i := by
  simp [← h]

/-- Settles O7: R99's sums are the encoder's words, by `toNat_encode_playNote` and its companions, where each operand
fits its field. -/
theorem assemblerGivesTheWords : Obligations.AssemblerGivesTheWords := by
  refine ⟨fun e => ?_, fun ch note => ?_, fun v => ?_, rfl, rfl, fun w => ?_, fun ch => ?_, rfl, rfl, rfl⟩
  · refine assemble_eq_ite decide_eq_true_iff fun he => congrArg ([·]) (ofNat_eq_encode ?_)
    rw [toNat_encode_enableOutput, BitVec.toNat_ofNat, Nat.mod_eq_of_lt (by omega)]
  · refine assemble_eq_ite (by simp [AsmLine.wf]) fun ⟨hch, hnote⟩ => congrArg ([·]) (ofNat_eq_encode ?_)
    rw [toNat_encode_playNote, BitVec.toNat_ofNat, BitVec.toNat_ofNat,
      Nat.mod_eq_of_lt (by omega), Nat.mod_eq_of_lt (by omega)]
  · refine assemble_eq_ite decide_eq_true_iff fun hv => congrArg ([·]) (ofNat_eq_encode ?_)
    rw [toNat_encode_setVolume, BitVec.toNat_ofNat, Nat.mod_eq_of_lt (by omega)]
  · exact assemble_eq_ite decide_eq_true_iff fun _ => rfl
  · have hwords : (AsmLine.silence ch).words = (AsmLine.playNote ch 0xFF).words := by
      simp only [AsmLine.words]
      congr 2
      omega
    simp [assemble, AsmLine.wf, hwords]

/-! ### The worked encodings -/

/-- Settles O1: each decoding is the encoding read back, and the channel field 3 is refused by `PLAY_NOTE` before its note is
read. -/
theorem workedEncodings : Obligations.WorkedEncodings :=
  ⟨rfl, rfl, decode_eq_command_iff.mpr rfl, rfl, decode_eq_command_iff.mpr rfl, rfl, decode_eq_command_iff.mpr rfl, rfl,
    decode_eq_command_iff.mpr rfl, rfl, decode_eq_command_iff.mpr rfl, decode_eq_command_iff.mpr rfl, fun _ => rfl,
    decode_enableOutput_opcode rfl, decode_unassigned_opcode (.inr (by decide))⟩

end Sys2Proof

/-! SUPPORT. The proofs for the statements of 40_commands.md. A run is read step by step, each step as one row of
`StepRow`; a single command is first brought to the shared operation that it performs, whose fields Laws/Ops.lean gives. -/

namespace Sys2Proof.Machine

/-! ### A run, step by step -/

/-- Every step answers a next state (60_exceptions.md R170). -/
theorem exists_step_eq_next (s : State) : ∃ t, step s = .next t := by
  unfold step
  cases s.nextAction with
  | command i => cases i <;> exact ⟨_, rfl⟩
  | _ => exact ⟨_, rfl⟩

theorem stepRow_stepped (s : State) : StepRow s s.nextAction s.stepped := by
  obtain ⟨t, h⟩ := exists_step_eq_next s
  rw [State.stepped_of_step h]
  exact stepRow_of_step h

theorem State.serviceCount_succ (s : State) (n : ChanId) (k : Nat) : s.serviceCount n (k + 1) =
    s.serviceCount n k + (decide ((s.after k).nextAction = .service n) && ((s.after k).chan n).pend).toNat := by
  simp [State.serviceCount, List.range_succ, List.countP_singleton, Bool.toNat, Bool.cond_eq_ite]

/-- Of all steps that neither silence the channel nor all channels, only a service that takes place inverts the level
(10_state.md R35). -/
theorem State.stepped_lvl {s : State} {n : ChanId} (hall : s.nextAction.silencesAll = false)
    (hn : s.nextAction.silences n = false) :
    s.stepped.lvl n = (s.lvl n ^^ (decide (s.nextAction = .service n) && (s.chan n).pend)) := by
  rw [(stepRow_stepped s).lvl n, hall, hn]
  by_cases hserve : s.nextAction = .service n <;> cases hpend : (s.chan n).pend <;> simp [hserve]

theorem parity_add_toNat (c : Nat) (b : Bool) :
    decide ((c + b.toNat) % 2 = 1) = (decide (c % 2 = 1) ^^ b) := by
  cases b with
  | false => simp
  | true =>
    have hflip : (c + 1) % 2 = 1 ↔ ¬ c % 2 = 1 := by omega
    simp only [Bool.toNat_true, hflip, decide_not, Bool.xor_true]

theorem State.vol_after {s : State} {k : Nat} (h : ∀ j, j < k → (s.after j).nextAction ≠ .reset) :
    (s.after k).vol = s.lastVolume k := by
  induction k with
  | zero => rfl
  | succ k ih =>
    have hreset := h k (Nat.lt_succ_self k)
    have hlast := ih fun j hj => h j (Nat.lt_succ_of_lt hj)
    rw [State.after_succ, (stepRow_stepped _).vol, State.lastVolume]
    split
    · next ha => simp [ha]
    · next ha => exact absurd ha hreset
    · next hset _ =>
      split
      · next ha => exact absurd ha (hset _)
      · exact hlast

theorem State.lvl_after {s : State} {n : ChanId} {k : Nat} (h : ∀ j, j < k →
    (s.after j).nextAction.silencesAll = false ∧ (s.after j).nextAction.silences n = false) :
    (s.after k).lvl n = (s.lvl n ^^ decide (s.serviceCount n k % 2 = 1)) := by
  induction k with
  | zero => simp [State.serviceCount]
  | succ k ih =>
    obtain ⟨hall, hn⟩ := h k (Nat.lt_succ_self k)
    have hlast := ih fun j hj => h j (Nat.lt_succ_of_lt hj)
    rw [State.after_succ, State.stepped_lvl hall hn, hlast, State.serviceCount_succ, parity_add_toNat, Bool.xor_assoc]

/-- Settles O46, by induction on the number of steps, for the volume and for each level. -/
theorem volumeAndLevelsInterleave : Obligations.VolumeAndLevelsInterleave :=
  ⟨fun _ _ => State.vol_after, fun _ _ _ => State.lvl_after⟩

/-! ### What each command performs -/

theorem exec_enableOutput_one (s : State) : exec (.enableOutput 1) s = .next (powerOn s) := rfl

theorem exec_enableOutput_zero (s : State) : exec (.enableOutput 0) s = .next (powerOff s) := rfl

theorem exec_playNote_noteNone (n : ChanId) (s : State) :
    exec (.playNote (fieldOfChan n) noteNone) s = .next (silenceChan n s) := by
  simp [exec, execPlayNote, playNote, noteOperand_none]

theorem exec_playNote_index (n : ChanId) {note : BitVec 8} {s : State} (hnote : note ≠ noteNone)
    (hlt : note.toNat < s.cfg.noteCount) :
    exec (.playNote (fieldOfChan n) note) s = .next (startNote n note.toNat s) := by
  simp [exec, execPlayNote, playNote, noteOperand_index hnote hlt]

/-! ### The fields of `MIX`, the enables and the surroundings under what the commands perform -/

@[simp] theorem powerOff_vol (s : State) : (powerOff s).vol = s.vol := mixVol_mixOf _ _

@[simp] theorem silenceChan_vol (n : ChanId) (s : State) : (silenceChan n s).vol = s.vol := by
  simp [State.vol]

@[simp] theorem State.setVol_vol (s : State) (v : BitVec 2) : (s.setVol v).vol = v := mixVol_mixOf _ _

theorem powerOff_enables (s : State) : chanMask Channel.chEn (powerOff s) = 0#3 :=
  lvl_ext fun n => by simp [powerOff_chan]

/-- A silenced channel's bit leaves the enable mask as it leaves the level mask (10_state.md R34, R45). -/
theorem silenceChan_enables (n : ChanId) (s : State) :
    chanMask Channel.chEn (silenceChan n s) = lvlClear n (chanMask Channel.chEn s) := by
  refine lvl_ext fun m => ?_
  rw [chanMask_bit, lvlClear_bit, chanMask_bit, silenceChan_chan]
  by_cases h : m = n <;> simp [h]

theorem powerOn_surroundings (s : State) : sameSurroundings s (powerOn s) := ⟨rfl, rfl, rfl, rfl, rfl⟩

theorem powerOff_surroundings (s : State) : sameSurroundings s (powerOff s) := ⟨rfl, rfl, rfl, rfl, rfl⟩

theorem State.setVol_surroundings (s : State) (v : BitVec 2) : sameSurroundings s (s.setVol v) :=
  ⟨rfl, rfl, rfl, rfl, rfl⟩

theorem startNote_surroundings (n : ChanId) (i : Nat) (s : State) : sameSurroundings s (startNote n i s) := by
  simp [sameSurroundings]

theorem silenceChan_surroundings (n : ChanId) (s : State) : sameSurroundings s (silenceChan n s) := by
  simp [sameSurroundings]

/-! ### The error bits in the `STATUS` view -/

/-- The `STATUS` view shows each error at bit 12 and its code (10_state.md R45, 60_exceptions.md R175). -/
theorem State.statusWord_errBit (s : State) (k : ErrKind) : s.statusWord.getLsbD (12 + k.code) = s.errBit k := by
  obtain ⟨-, -, -, -, -, herr⟩ := s.statusWord_layout
  rw [State.errBit, ← herr, BitVec.getLsbD_extractLsb']
  cases k <;> simp [ErrKind.code]

theorem State.setErr_errBit_same (s : State) (k : ErrKind) : (s.setErr k).errBit k = true := by
  simp [State.errBit, errWith_bit]

/-! ### The statements about single commands -/

/-- Settles O25, by what `powerOn` and `powerOff` do to each field. -/
theorem enableOutputResult : Obligations.EnableOutputResult := by
  refine ⟨by decide, fun s => ?_, fun s => ?_, ?_⟩
  · exact ⟨powerOn s, exec_enableOutput_one s, rfl, rfl, rfl, rfl, powerOn_chan s, rfl, rfl, powerOn_surroundings s⟩
  · exact ⟨powerOff s, exec_enableOutput_zero s, rfl, fun n => by simp [powerOff_chan], fun n => powerOff_lvl n s,
      powerOff_vol s, rfl, rfl, rfl, rfl, powerOff_surroundings s⟩
  · rintro s t hcfg - - hmix - h
    cases (exec_enableOutput_zero s).symm.trans h
    exact ⟨rfl, powerOff_enables s, by rw [powerOff_mix, hmix]; rfl, by rw [powerOff_duty, hcfg, hmix]; decide, rfl⟩

/-- Settles O26: the note's index passes both checks, so the command starts the note. -/
theorem playNoteStartsTheChannel : Obligations.PlayNoteStartsTheChannel := by
  intro n note s hnote hlt
  have hchan : (startNote n note.toNat s).chan n = Channel.start (noteRead s.cfg note.toNat) := by
    simp [startNote_chan]
  refine ⟨startNote n note.toNat s, exec_playNote_index n hnote hlt, ?_⟩
  rw [hchan]
  exact ⟨rfl, rfl, rfl, rfl, fun m hm => by simp [startNote_chan, hm], startNote_mix .., startNote_duty ..,
    startNote_power .., startNote_pwmCnt .., startNote_err .., startNote_resp .., startNote_surroundings ..⟩

/-- Settles O27: the sentinel is read before the note's range, and the channel before both. -/
theorem playNoteSilencesTheChannel : Obligations.PlayNoteSilencesTheChannel := by
  refine ⟨fun n => by cases n <;> rfl, fun n s => ?_, fun _ => rfl, ?_⟩
  · have hchan : (silenceChan n s).chan n = (s.chan n).silence := by
      simp [silenceChan_chan]
    refine ⟨silenceChan n s, exec_playNote_noteNone n s, ?_⟩
    rw [hchan]
    exact ⟨rfl, rfl, rfl, rfl, by simp, by simp, silenceChan_vol n s, fun m hm => by simp [silenceChan_chan, hm],
      silenceChan_power .., silenceChan_pwmCnt .., silenceChan_err .., silenceChan_resp .., silenceChan_surroundings ..⟩
  · rintro s t hcfg hen hmix - h
    cases (exec_playNote_noteNone .c0 s).symm.trans h
    exact ⟨by rw [silenceChan_enables, hen]; rfl, by rw [silenceChan_mix, hmix]; rfl,
      by rw [silenceChan_duty, hcfg, hmix]; decide⟩

/-- Settles O29, by what `setVol` does to each field. -/
theorem setVolumeResult : Obligations.SetVolumeResult := by
  refine ⟨by decide, fun v s => ?_, ?_⟩
  · exact ⟨s.setVol v, rfl, s.setVol_vol v, s.setVol_lvl v, rfl, s.setVol_chan v, rfl, rfl, rfl, rfl,
      s.setVol_surroundings v⟩
  · rintro s t hcfg hmix - h
    cases h
    exact ⟨by rw [State.setVol_mix, hmix]; rfl, by rw [State.setVol_duty, hcfg, hmix]; decide⟩

/-- Settles O30: the command is one response and nothing else. -/
theorem getVolumeResult : Obligations.GetVolumeResult := by
  refine ⟨rfl, fun _ => rfl, fun s t hmix h => ?_⟩
  cases h
  rw [State.respond_resp, hmix]
  rfl

/-- Settles O32: the operation sets the one bit, and the step of an illegal word is the operation once the word and the
turn are gone. -/
theorem illegalWordPerformed : Obligations.IllegalWordPerformed := by
  refine ⟨fun s => ⟨s.setErr .ill, rfl, rfl, ?_, rfl⟩, fun s ts w ws why => step_of_illegal_word,
    decode_getVolume_opcode rfl, decode_unassigned_opcode (.inr (by decide))⟩
  exact ((s.setErr .ill).statusWord_errBit .ill).trans (s.setErr_errBit_same .ill)

/-- Settles O34: bits 7:6 of the `STATUS` view are the volume (10_state.md R45). -/
theorem volumeIsStatusField : Obligations.VolumeIsStatusField := by
  intro s
  obtain ⟨-, -, hvol, -⟩ := s.statusWord_layout
  exact ⟨s.vol.setWidth 16, s.statusWord, rfl, rfl, by rw [hvol]⟩

end Sys2Proof.Machine

/-! SUPPORT. The proofs for the statements of 41_oscillators.md. A single event is read through the lemmas of Laws/Ops.lean; a
run is an induction on the number of steps, each step one row of `StepRow`. What is counted over a run is kept as an equation
without a division, and the quotients and remainders of the statements follow from it. -/

namespace Sys2Proof.Machine

/-! ### The state from its fields -/

theorem Channel.eq_of_fields {c d : Channel} (hen : c.chEn = d.chEn) (hperiod : c.period = d.period)
    (hcnt : c.cnt = d.cnt) (hpend : c.pend = d.pend) : c = d := by
  obtain ⟨_, _, _, _⟩ := c
  simp_all

/-- Two states with the same registers and the same surroundings are one state (10_state.md R49). -/
theorem State.eq_of_fields {s t : State} (hpower : t.power = s.power) (hmix : t.mix = s.mix) (hduty : t.duty = s.duty)
    (hpwm : t.pwmCnt = s.pwmCnt) (hchan : ∀ n, t.chan n = s.chan n) (herr : t.err = s.err) (hresp : t.resp = s.resp)
    (hout : sameSurroundings s t) : t = s := by
  obtain ⟨hcfg, hport, hwait, hturns, hround⟩ := hout
  have h0 : t.ch0 = s.ch0 := hchan .c0
  have h1 : t.ch1 = s.ch1 := hchan .c1
  have h2 : t.ch2 = s.ch2 := hchan .c2
  obtain ⟨_, _, _, _, _, _, _, _, _, _, _, _, _, _⟩ := t
  simp_all

/-! ### The events and the pin -/

/-- The carrier count wraps at 255 as 8 bits do, so the test for the top changes nothing (41_oscillators.md R148). -/
theorem ite_eq_pwmTop (c : BitVec 8) : (if c = pwmTop then 0 else c + 1) = c + 1 := by
  split
  · next htop => rw [htop]; rfl
  · rfl

theorem pwmTick_of_power {s : State} (h : s.power = true) : pwmTick s = { s with pwmCnt := s.pwmCnt + 1 } := by
  rw [pwmTick, if_pos h, ite_eq_pwmTop]

theorem State.pwmOut_iff (s : State) : s.pwmOut = true ↔ s.power = true ∧ s.pwmCnt.toNat < s.duty.toNat := by
  simp [State.pwmOut, BitVec.lt_def]

theorem State.pwmOut_of_stopped {s : State} (h : s.power = false) : s.pwmOut = false := by
  obtain ⟨hpin, -, -⟩ := powerAfterStep.2 s h
  exact hpin

theorem tmrTick_of_stopped {s : State} (h : s.power = false) : tmrTick s = s := by
  obtain ⟨-, htmr, -⟩ := powerAfterStep.2 s h
  exact htmr

theorem pwmTick_of_stopped {s : State} (h : s.power = false) : pwmTick s = s := by
  obtain ⟨-, -, hpwm⟩ := powerAfterStep.2 s h
  exact hpwm

theorem tmrTick_chan_of_power {s : State} (h : s.power = true) (n : ChanId) :
    (tmrTick s).chan n = (s.chan n).tick := by
  simp [tmrTick_chan, h]

theorem tmrTick_surroundings (s : State) : sameSurroundings s (tmrTick s) := by
  simp [sameSurroundings]

@[simp] theorem serviceBody_vol (n : ChanId) (s : State) : (serviceBody n s).vol = s.vol := by
  simp [State.vol]

theorem serviceBody_surroundings (n : ChanId) (s : State) : sameSurroundings s (serviceBody n s) := by
  simp [sameSurroundings]

theorem chService_of_pend {n : ChanId} {s : State} (h : (s.chan n).pend = true) : chService n s = serviceBody n s :=
  if_pos h

theorem chService_of_not_pend {n : ChanId} {s : State} (h : (s.chan n).pend = false) : chService n s = s := by
  simp [chService, h]

/-- A count below its period can be raised by one without a wrap (41_oscillators.md R140, corner cases). -/
theorem toNat_add_one_of_lt {c p : BitVec 16} (h : c.toNat < p.toNat) : (c + 1).toNat = c.toNat + 1 := by
  bv_omega

/-- A period of 1 leaves the count no value but 0, from which the next tick matches. -/
theorem cnt_add_one_of_period_one {c p : BitVec 16} (h : c.toNat < p.toNat) (hp : p = 1) : c + 1 = p := by
  bv_omega

/-- Settles O38: with the engine stopped by the test of `POWER`, with it running by `pwmTick_of_power`. -/
theorem pwmTickResult : Obligations.PwmTickResult :=
  ⟨fun _ => pwmTick_of_stopped, fun _ => pwmTick_of_power, fun s h htop => by rw [pwmTick_of_power h, htop]; rfl⟩

/-- Settles O40: the comparison of the pin is unsigned. -/
theorem pinFunction : Obligations.PinFunction := fun s => ⟨s.pwmOut_iff, State.pwmOut_of_stopped⟩

/-- Settles O37: each channel ticks by `Channel.tick`, and `ERR.OVR` is set by the one test over all channels. -/
theorem timerTickResult : Obligations.TimerTickResult := by
  refine ⟨fun _ => tmrTick_of_stopped, fun s hpower => ?_, fun s => ?_, fun s hinv n hen => ?_, fun s hpower hc => ?_⟩
  · simp only [tmrTick_chan_of_power hpower, ← s.anyOverrun_iff]
    refine ⟨fun n => ⟨(s.chan n).tick_chEn, (s.chan n).tick_period⟩, fun n hen => ?_, fun n hen hmatch => ?_,
      fun n hen hmatch => ?_, fun hover => ?_, fun hover => ?_⟩
    · simp [Channel.tick, hen]
    · rw [Channel.tick_cnt, Channel.tick_pend, if_pos hen, if_pos hmatch, if_pos ⟨hen, hmatch⟩]
      exact ⟨rfl, rfl⟩
    · rw [Channel.tick_cnt, Channel.tick_pend, if_pos hen, if_neg hmatch, if_neg fun hboth => hmatch hboth.2]
      exact ⟨rfl, rfl⟩
    · rw [tmrTick_err, hpower, hover]
      rfl
    · simp [hover]
  · exact ⟨tmrTick_mix s, tmrTick_duty s, tmrTick_power s, tmrTick_pwmCnt s, tmrTick_resp s, tmrTick_surroundings s⟩
  · obtain ⟨-, hlt⟩ := (hinv.chans n).counting hen
    exact ⟨toNat_add_one_of_lt hlt, cnt_add_one_of_period_one hlt⟩
  · rw [tmrTick_chan_of_power hpower, hc]
    rfl

/-- Settles O39: a service with its match pending is its body, whose fields Laws/Ops.lean gives. -/
theorem serviceResult : Obligations.ServiceResult := by
  refine ⟨fun n s hpend => ?_, fun _ _ => chService_of_not_pend, fun s hinv n => (hinv.chans n).pending,
    fun s hcfg hmix hpend => ?_⟩
  · rw [chService_of_pend hpend]
    exact ⟨by simp, fun m hm => by simp [hm], serviceBody_vol n s, by simp, by simp [serviceBody_chan],
      fun m hm => by simp [serviceBody_chan, hm], serviceBody_power n s, serviceBody_pwmCnt n s, serviceBody_err n s,
      serviceBody_resp n s, serviceBody_surroundings n s⟩
  · rw [chService_of_pend hpend, serviceBody_mix, serviceBody_duty, hcfg, hmix]
    exact ⟨by decide, by decide, by simp [serviceBody_chan]⟩

/-! ### `DUTY` follows `MIX` -/

/-- The rows that change `MIX`, and what each makes of `DUTY` (41_oscillators.md R147). -/
theorem StepRow.mix_writers {s t : State} {a : Action} (r : StepRow s a t) (h : t.mix ≠ s.mix) :
    t.duty = dutyRead s.cfg t.mix ∧
      ((∃ n, a = .service n) ∨ (∃ n, a.silences n = true) ∨ (∃ v, a = .command (.setVolume v)) ∨
        a.silencesAll = true) := by
  cases r with
  | serve m => exact ⟨by simp, .inl ⟨m, rfl⟩⟩
  | silence m => exact ⟨by simp, .inr (.inl ⟨m, by simp [Action.silences]⟩)⟩
  | setVolume v => exact ⟨by simp, .inr (.inr (.inl ⟨v, rfl⟩))⟩
  | powerOff | reset => exact ⟨by simp, .inr (.inr (.inr rfl))⟩
  | _ => exact absurd (by simp) h

/-- Settles O17, by the rows of a step. -/
theorem dutyTracksMix : Obligations.DutyTracksMix := fun _ _ h =>
  ⟨(stepRow_of_step h).mix_writers, (stepRow_of_step h).duty_tracks⟩

/-- Under the invariants `DUTY` is the entry of the two fields of `MIX` (10_state.md R50.4, 20_memory.md R71). -/
theorem State.Inv.duty_eq {s : State} (h : s.Inv) : s.duty = s.cfg.dutyEntry (s.vol ++ mixLvl s.mix).toNat := by
  rw [h.dutyTracks, dutyRead]
  exact congrArg (s.cfg.dutyEntry ·.toNat) (mixOf_fields s.mix).symm

/-- Settles O49: the premise, at the one volume, orders the two entries in which `DUTY` stands. -/
theorem additiveOutput : Obligations.AdditiveOutput := by
  intro s s' hinv hinv' hadd hcfg hvol
  have hduty' : s'.duty = s.cfg.dutyEntry (s.vol ++ mixLvl s'.mix).toNat := by
    rw [hinv'.duty_eq, hcfg, hvol]
  rw [hduty', hinv.duty_eq]
  refine ⟨hadd _ _ _, fun heq => ?_⟩
  have hsame := BitVec.le_antisymm (hadd s.vol _ _ heq.ge) (hadd s.vol _ _ heq.le)
  refine ⟨hsame, fun hpower hpwm => ?_⟩
  rw [State.pwmOut, State.pwmOut, hduty', hinv.duty_eq, hsame, hpower, hpwm]

/-! ### Services of two channels -/

theorem serviceBody_comm {n m : ChanId} (h : n ≠ m) (s : State) :
    serviceBody n (serviceBody m s) = serviceBody m (serviceBody n s) := by
  refine State.eq_of_fields (by simp) (by simp [lvlToggle_comm n m]) (by simp [lvlToggle_comm n m]) (by simp)
    (fun k => ?_) (by simp) (by simp) (by simp [sameSurroundings])
  obtain rfl | hk := eq_or_ne k n
  · simp [serviceBody_chan, h]
  · simp [serviceBody_chan, hk]

theorem chService_chan_other {n m : ChanId} (h : m ≠ n) (s : State) : (chService n s).chan m = s.chan m := by
  obtain ⟨-, hs⟩ | ⟨-, hs⟩ := chService_cases n s <;> simp [hs, serviceBody_chan, h]

/-- A service leaves the pending match of every other channel, so the second service runs or passes as it would alone. -/
theorem chService_comm (n m : ChanId) (s : State) : chService n (chService m s) = chService m (chService n s) := by
  obtain rfl | h := eq_or_ne n m
  · rfl
  · have hn' : ((chService m s).chan n).pend = (s.chan n).pend := by rw [chService_chan_other h]
    have hm' : ((chService n s).chan m).pend = (s.chan m).pend := by rw [chService_chan_other h.symm]
    cases hm : (s.chan m).pend
    · rw [chService_of_not_pend (hm'.trans hm), chService_of_not_pend hm]
    cases hn : (s.chan n).pend
    · rw [chService_of_not_pend (hn'.trans hn), chService_of_not_pend hn]
    · rw [chService_of_pend (hn'.trans hn), chService_of_pend (hm'.trans hm), chService_of_pend hm,
        chService_of_pend hn, serviceBody_comm h]

theorem chService_with_turns (n : ChanId) (s : State) (ts : List Turn) :
    chService n { s with turns := ts } = { chService n s with turns := ts } := by
  rw [chService, chService, State.chan_with_turns]
  cases (s.chan n).pend
  · rfl
  · cases n <;> rfl

theorem State.stepped_of_service {s : State} {n : ChanId} {ts : List Turn} (h : s.turns = .service n :: ts) :
    s.stepped = { chService n s with turns := ts } := by
  rw [← chService_with_turns]
  refine State.stepped_of_step ?_
  rw [step, State.nextAction_of_turns h, State.advance_of_turns h]
  rfl

theorem State.after_two_services {s : State} {n m : ChanId} {ts : List Turn}
    (h : s.turns = .service n :: .service m :: ts) : s.after 2 = { chService m (chService n s) with turns := ts } := by
  rw [State.after_succ, State.after_succ, State.after_zero, State.stepped_of_service h, State.stepped_of_service rfl,
    chService_with_turns]

/-- Settles O44: two turns given to services are the two services, and these commute. -/
theorem servicesCommute : Obligations.ServicesCommute := by
  intro s n m ts
  rw [State.after_two_services rfl, State.after_two_services rfl]
  simp only [chService_with_turns, chService_comm n m]

/-! ### The carrier -/

theorem State.pwmTickCount_succ (s : State) (k : Nat) :
    s.pwmTickCount (k + 1) = s.pwmTickCount k + (decide ((s.after k).nextAction = .pwmTick)).toNat := by
  simp [State.pwmTickCount, List.range_succ, List.countP_singleton, Bool.toNat, Bool.cond_eq_ite]

/-- While the engine runs through a step, only a carrier tick moves the count (10_state.md R38). -/
theorem State.stepped_pwmCnt {s : State} (h : s.power = true) (h' : s.stepped.power = true) :
    s.stepped.pwmCnt = s.pwmCnt + BitVec.ofNat 8 (decide (s.nextAction = .pwmTick)).toNat := by
  have hall : s.nextAction.silencesAll = false := by
    rw [(stepRow_stepped s).power] at h'
    by_contra hall
    simp [hall] at h'
  rw [(stepRow_stepped s).pwmCnt, hall]
  by_cases htick : s.nextAction = .pwmTick
  · have hwrap : (if s.pwmCnt = 255 then 0 else s.pwmCnt + 1) = s.pwmCnt + 1 :=
      ite_eq_pwmTop _
    rw [hwrap]
    simp [htick, h]
  · simp [htick]

theorem State.pwmCnt_after {s : State} {k : Nat} (hzero : s.pwmCnt = 0) (h : ∀ j, j ≤ k → (s.after j).power = true) :
    (s.after k).pwmCnt = BitVec.ofNat 8 (s.pwmTickCount k) := by
  induction k with
  | zero => exact hzero
  | succ k ih =>
    rw [State.after_succ, State.stepped_pwmCnt (h k k.le_succ) (h (k + 1) le_rfl), ih fun j hj => h j (hj.trans k.le_succ),
      State.pwmTickCount_succ, BitVec.ofNat_add]

theorem State.stepped_of_pwmClock {s : State} {ts : List Turn} (h : s.turns = .pwmClock :: ts) :
    s.stepped = pwmTick { s with turns := ts } := by
  refine State.stepped_of_step ?_
  rw [step, State.nextAction_of_turns h, State.advance_of_turns h]
  rfl

/-- A run of carrier ticks only counts. -/
theorem State.after_pwmClocks {s : State} {k : Nat} {ts : List Turn} (hpower : s.power = true)
    (h : s.turns = List.replicate k .pwmClock ++ ts) :
    s.after k = { s with turns := ts, pwmCnt := s.pwmCnt + BitVec.ofNat 8 k } := by
  induction k generalizing s with
  | zero =>
    cases h
    simp
  | succ k ih =>
    have hstep : s.stepped = { s with turns := List.replicate k .pwmClock ++ ts, pwmCnt := s.pwmCnt + 1 } :=
      (State.stepped_of_pwmClock h).trans (pwmTick_of_power hpower)
    have hpwm : s.pwmCnt + 1 + BitVec.ofNat 8 k = s.pwmCnt + BitVec.ofNat 8 (k + 1) := by
      rw [BitVec.ofNat_add, BitVec.add_comm (BitVec.ofNat 8 k), BitVec.add_assoc]
      rfl
    calc
      s.after (k + 1) = ({ s with turns := List.replicate k .pwmClock ++ ts, pwmCnt := s.pwmCnt + 1 } : State).after k := by
        rw [State.after_succ_left, hstep]
      _ = { s with turns := ts, pwmCnt := s.pwmCnt + 1 + BitVec.ofNat 8 k } := ih hpower rfl
      _ = { s with turns := ts, pwmCnt := s.pwmCnt + BitVec.ofNat 8 (k + 1) } := by rw [hpwm]

theorem countP_range_lt (d n : Nat) : (List.range n).countP (fun j => decide (j < d)) = min d n := by
  induction n with
  | zero => simp
  | succ n ih =>
    rw [List.range_succ, List.countP_append, ih, List.countP_singleton]
    by_cases h : n < d <;> simp [h] <;> omega

/-- Of the first 256 ticks of a carrier period, the pin is high after tick j exactly while j is below the duty value. -/
theorem State.pwmOut_after_pwmClocks {s : State} {j : Nat} {ts : List Turn} (hpower : s.power = true) (hzero : s.pwmCnt = 0)
    (h : s.turns = List.replicate 256 .pwmClock ++ ts) (hj : j < 256) :
    (s.after j).pwmOut = decide (j < s.duty.toNat) := by
  have hturns : s.turns = List.replicate j .pwmClock ++ (List.replicate (256 - j) .pwmClock ++ ts) := by
    rw [h, ← List.append_assoc, List.replicate_append_replicate, Nat.add_sub_cancel' hj.le]
  rw [State.after_pwmClocks hpower hturns]
  simp [State.pwmOut, hpower, hzero, BitVec.lt_def, Nat.mod_eq_of_lt hj]

/-- Settles O41: the count is the number of carrier ticks at 8 bits, so over 256 of them it passes each value once, `DUTY` of
which are below `DUTY`. -/
theorem carrierDutyFraction : Obligations.CarrierDutyFraction := by
  refine ⟨fun s k hzero h j hj => ?_, fun s ts hpower hzero hturns => ⟨?_, ?_⟩⟩
  · obtain ⟨hpower, hduty⟩ := h j hj
    have hcnt : (s.after j).pwmCnt.toNat = s.pwmTickCount j % 256 := by
      rw [State.pwmCnt_after hzero fun i hi => (h i (hi.trans hj)).1, BitVec.toNat_ofNat]
    exact ⟨hcnt, by rw [State.pwmOut_iff, hcnt, hduty]; simp [hpower]⟩
  · have hpin : ∀ j ∈ List.range 256, (s.after j).pwmOut = true ↔ decide (j < s.duty.toNat) = true := fun j hj => by
      rw [State.pwmOut_after_pwmClocks hpower hzero hturns (List.mem_range.mp hj)]
    rw [List.countP_congr hpin, countP_range_lt, Nat.min_eq_left s.duty.isLt.le]
  · rw [State.after_pwmClocks hpower hturns, hzero]
    rfl

/-! ### A sounding channel left to itself -/

section
variable {s : State} {n : ChanId}

theorem leavesAlone.silencesAll {a : Action} (h : leavesAlone n a) : a.silencesAll = false := by
  obtain ⟨hreset, hoff, -⟩ := h
  rw [Action.silencesAll, decide_eq_false hreset, decide_eq_false hoff]
  rfl

theorem leavesAlone.silences {a : Action} (h : leavesAlone n a) : a.silences n = false := by
  obtain ⟨-, -, hplay⟩ := h
  simp [Action.silences, hplay]

theorem leavesAlone.noteStarted {a : Action} (h : leavesAlone n a) (c : Config) : a.noteStarted c n = none := by
  obtain ⟨-, -, hplay⟩ := h
  unfold Action.noteStarted
  split
  · next ch note => exact if_neg fun ⟨hch, _⟩ => hplay note (by rw [hch])
  · rfl

theorem State.stepped_power_of_leavesAlone (h : leavesAlone n s.nextAction) (hpower : s.power = true) :
    s.stepped.power = true := by
  simp [(stepRow_stepped s).power, h.silencesAll, hpower]

/-- What is left for a step to do to the registers of a channel that it leaves alone: a tick, a service, or nothing. -/
theorem State.stepped_chan_cases (h : leavesAlone n s.nextAction) :
    (s.nextAction = .tmrTick ∧ s.power = true ∧ s.stepped.chan n = (s.chan n).tick) ∨
    (s.nextAction = .service n ∧ s.stepped.chan n = { s.chan n with pend := false }) ∨
    (s.nextAction ≠ .service n ∧ ¬ (s.nextAction = .tmrTick ∧ s.power = true) ∧ s.stepped.chan n = s.chan n) := by
  obtain ⟨hreset, -⟩ := id h
  simpa [h.silencesAll, h.silences, h.noteStarted, hreset] using (stepRow_stepped s).chan_cases n

theorem State.stepped_chEn (h : leavesAlone n s.nextAction) : (s.stepped.chan n).chEn = (s.chan n).chEn := by
  obtain ⟨-, -, hc⟩ | ⟨-, hc⟩ | ⟨-, -, hc⟩ := State.stepped_chan_cases h <;> simp [hc]

theorem State.stepped_period (h : leavesAlone n s.nextAction) : (s.stepped.chan n).period = (s.chan n).period := by
  obtain ⟨-, -, hc⟩ | ⟨-, hc⟩ | ⟨-, -, hc⟩ := State.stepped_chan_cases h <;> simp [hc]

/-! ### Matches and ticks -/

theorem Channel.atMatch_iff (c : Channel) : c.atMatch = true ↔ c.chEn = true ∧ c.cnt + 1 = c.period := by
  rw [Channel.atMatch, Bool.and_eq_true, decide_eq_true_iff]

/-- A match takes the count back by one period, so the two together grow by one at each tick. -/
theorem Channel.tick_count {c : Channel} (hen : c.chEn = true) (hlt : c.cnt.toNat < c.period.toNat) :
    c.atMatch.toNat * c.period.toNat + c.tick.cnt.toNat = c.cnt.toNat + 1 := by
  rw [Channel.tick_cnt, if_pos hen, Channel.atMatch, hen, ← toNat_add_one_of_lt hlt]
  by_cases hmatch : c.cnt + 1 = c.period
  · rw [if_pos hmatch, decide_eq_true hmatch, hmatch]
    simp
  · rw [if_neg hmatch, decide_eq_false hmatch]
    simp

/-- A match that finds no other pending is pending itself (41_oscillators.md R140, R142). -/
theorem Channel.tick_pend_toNat {c : Channel} (h : c.overruns = false) :
    c.tick.pend.toNat = c.pend.toNat + c.atMatch.toNat := by
  rw [Channel.tick_pend]
  by_cases hmatch : c.chEn = true ∧ c.cnt + 1 = c.period
  · have hat := c.atMatch_iff.mpr hmatch
    have hpend : c.pend = false := by simpa [Channel.overruns, hat] using h
    rw [if_pos hmatch, hat, hpend]
    rfl
  · rw [if_neg hmatch, Bool.eq_false_iff.mpr (mt c.atMatch_iff.mp hmatch)]
    rfl

theorem Channel.not_overruns {c : Channel} (h : c.pend = true → c.cnt + 1 ≠ c.period) : c.overruns = false := by
  cases hpend : c.pend
  · simp [Channel.overruns, hpend]
  · rw [Channel.overruns, Channel.atMatch, decide_eq_false (h hpend)]
    simp

/-- The next step is a compare match of channel n (41_oscillators.md R141). -/
def State.hasMatch (s : State) (n : ChanId) : Bool :=
  decide (s.nextAction = .tmrTick) && s.power && (s.chan n).atMatch

theorem State.hasMatch_of_tick (htick : s.nextAction = .tmrTick) (hpower : s.power = true) :
    s.hasMatch n = (s.chan n).atMatch := by
  simp [State.hasMatch, htick, hpower]

theorem State.hasMatch_of_not_tick (h : ¬ (s.nextAction = .tmrTick ∧ s.power = true)) : s.hasMatch n = false := by
  rw [State.hasMatch, Bool.and_eq_false_iff]
  exact .inl (by simpa using h)

theorem State.matchCount_succ (s : State) (n : ChanId) (k : Nat) :
    s.matchCount n (k + 1) = s.matchCount n k + ((s.after k).hasMatch n).toNat := by
  simp [State.matchCount, State.hasMatch, List.range_succ, List.countP_singleton, Bool.toNat, Bool.cond_eq_ite]

theorem State.tickCount_succ (s : State) (k : Nat) :
    s.tickCount (k + 1) = s.tickCount k + (decide ((s.after k).nextAction = .tmrTick)).toNat := by
  simp [State.tickCount, List.range_succ, List.countP_singleton, Bool.toNat, Bool.cond_eq_ite]

theorem State.stepped_count (h : leavesAlone n s.nextAction) (hpower : s.power = true) (hen : (s.chan n).chEn = true)
    (hlt : (s.chan n).cnt.toNat < (s.chan n).period.toNat) :
    (s.hasMatch n).toNat * (s.chan n).period.toNat + (s.stepped.chan n).cnt.toNat =
      (s.chan n).cnt.toNat + (decide (s.nextAction = .tmrTick)).toNat := by
  obtain ⟨ha, -, hc⟩ | ⟨ha, hc⟩ | ⟨-, hno, hc⟩ := State.stepped_chan_cases h
  · rw [State.hasMatch_of_tick ha hpower, hc, Channel.tick_count hen hlt]
    simp [ha]
  · simp [State.hasMatch, ha, hc]
  · have hidle : s.nextAction ≠ .tmrTick := fun ha => hno ⟨ha, hpower⟩
    rw [State.hasMatch_of_not_tick hno]
    simp [hc, hidle]

/-- A match that finds no other pending is serviced or still pending: it is never lost (41_oscillators.md R145). -/
theorem State.stepped_pend (h : leavesAlone n s.nextAction)
    (hfree : s.nextAction = .tmrTick → (s.chan n).overruns = false) :
    (decide (s.nextAction = .service n) && (s.chan n).pend).toNat + (s.stepped.chan n).pend.toNat =
      (s.chan n).pend.toNat + (s.hasMatch n).toNat := by
  obtain ⟨ha, hpower, hc⟩ | ⟨ha, hc⟩ | ⟨hno, hno', hc⟩ := State.stepped_chan_cases h
  · rw [State.hasMatch_of_tick ha hpower, hc, Channel.tick_pend_toNat (hfree ha)]
    simp [ha]
  · simp [State.hasMatch, ha, hc]
  · rw [State.hasMatch_of_not_tick hno']
    simp [hc, hno]

/-! ### Runs that leave a channel alone -/

theorem State.after_inv (h : s.Inv) (k : Nat) : (s.after k).Inv := by
  induction k with
  | zero => exact h
  | succ k ih => exact (stepRow_stepped _).keeps_inv ih

/-- What holds after k steps of a channel that has been left alone: it still sounds its note, and its count and the periods
of its matches add up to the ticks. -/
structure State.SoundsOn (s : State) (n : ChanId) (k : Nat) : Prop where
  power : (s.after k).power = true
  chEn : ((s.after k).chan n).chEn = true
  period : ((s.after k).chan n).period = (s.chan n).period
  counts : (s.chan n).period.toNat * s.matchCount n k + ((s.after k).chan n).cnt.toNat =
    (s.chan n).cnt.toNat + s.tickCount k

theorem State.soundsOn_of_leavesAlone {k : Nat} (hinv : s.Inv) (hpower : s.power = true) (hen : (s.chan n).chEn = true)
    (h : ∀ j, j < k → leavesAlone n (s.after j).nextAction) : s.SoundsOn n k := by
  induction k with
  | zero => exact ⟨hpower, hen, rfl, by simp [State.matchCount, State.tickCount]⟩
  | succ k ih =>
    have hk := h k k.lt_succ_self
    obtain ⟨hpower', hen', hperiod, hcounts⟩ := ih fun j hj => h j (hj.trans k.lt_succ_self)
    obtain ⟨-, hlt⟩ := ((s.after_inv hinv k).chans n).counting hen'
    have hstep := State.stepped_count hk hpower' hen' hlt
    refine ⟨State.stepped_power_of_leavesAlone hk hpower', (State.stepped_chEn hk).trans hen',
      (State.stepped_period hk).trans hperiod, ?_⟩
    rw [hperiod, Nat.mul_comm] at hstep
    rw [State.matchCount_succ, State.tickCount_succ, State.after_succ, Nat.mul_add]
    omega

/-- Matches and count as quotient and remainder: the count stays below the period (41_oscillators.md R141). -/
theorem State.SoundsOn.div_mod {k : Nat} (h : s.SoundsOn n k) (hinv : s.Inv) :
    s.matchCount n k = ((s.chan n).cnt.toNat + s.tickCount k) / (s.chan n).period.toNat ∧
    ((s.after k).chan n).cnt.toNat = ((s.chan n).cnt.toNat + s.tickCount k) % (s.chan n).period.toNat := by
  obtain ⟨hpos, hlt⟩ := ((s.after_inv hinv k).chans n).counting h.chEn
  rw [h.period] at hpos hlt
  obtain ⟨hdiv, hmod⟩ := (Nat.div_mod_unique hpos).mpr ⟨(Nat.add_comm ..).trans h.counts, hlt⟩
  exact ⟨hdiv.symm, hmod.symm⟩

theorem State.serviceCount_add_pend {k : Nat} (h : ∀ j, j < k → leavesAlone n (s.after j).nextAction)
    (hfree : ∀ j, j < k → (s.after j).nextAction = .tmrTick → ((s.after j).chan n).overruns = false) :
    s.serviceCount n k + ((s.after k).chan n).pend.toNat = (s.chan n).pend.toNat + s.matchCount n k := by
  induction k with
  | zero => simp [State.serviceCount, State.matchCount]
  | succ k ih =>
    have hlast := ih (fun j hj => h j (hj.trans k.lt_succ_self)) fun j hj => hfree j (hj.trans k.lt_succ_self)
    have hstep := State.stepped_pend (h k k.lt_succ_self) (hfree k k.lt_succ_self)
    rw [State.serviceCount_succ, State.matchCount_succ, State.after_succ]
    omega

end

/-- Settles O42, by induction on the number of steps, with matches and ticks in the one equation of `SoundsOn`. -/
theorem compareMatchEveryPeriod : Obligations.CompareMatchEveryPeriod := by
  refine ⟨fun s n k hinv hpower hen h => ?_, fun s n h => by rw [tmrTick_of_stopped h]⟩
  have hsounds := State.soundsOn_of_leavesAlone hinv hpower hen h
  exact ⟨hsounds.power, hsounds.chEn, hsounds.period, hsounds.div_mod hinv⟩

theorem Config.toneFrequency_mul {c : Config} {p : BitVec 16} (hp : p.toNat ≠ 0) :
    c.toneFrequency p * (2 * p.toNat) = c.fTimer :=
  div_mul_cancel₀ _ (by positivity)

/-- Settles O43: a service inverts the level, each match is serviced or pending, and O42 counts the matches. -/
theorem squareWave : Obligations.SquareWave := by
  intro s n k hinv hpower hen h hfree
  obtain ⟨hmatches, -⟩ := (State.soundsOn_of_leavesAlone hinv hpower hen h).div_mod hinv
  obtain ⟨hpos, -⟩ := (hinv.chans n).counting hen
  refine ⟨State.lvl_after fun j hj => ⟨(h j hj).silencesAll, (h j hj).silences⟩, ?_,
    Config.toneFrequency_mul (Nat.one_le_iff_ne_zero.mp hpos)⟩
  rw [← hmatches]
  exact State.serviceCount_add_pend h fun j hj htick => Channel.not_overruns (hfree j hj htick)

/-! ### A channel apart from the others -/

/-- What a step reads of a channel's future: the outside, the power state, how many responses there are, and the channel's
own registers and level (41_oscillators.md R146). -/
structure State.AgreesOn (n : ChanId) (s s' : State) : Prop where
  outside : sameSurroundings s s'
  power : s'.power = s.power
  responses : s'.resp.length = s.resp.length
  chan : s'.chan n = s.chan n
  lvl : s'.lvl n = s.lvl n

section
variable {s s' : State} (h : sameSurroundings s s')
include h

theorem nextTurn_of_sameSurroundings : s'.nextTurn = s.nextTurn := by
  obtain ⟨-, -, -, hturns, hround⟩ := h
  rw [State.nextTurn, State.nextTurn, State.agenda, State.agenda, hturns, hround]

theorem nextAction_of_sameSurroundings : s'.nextAction = s.nextAction := by
  obtain ⟨-, hport, hwait, -, -⟩ := id h
  rw [State.nextAction, State.nextAction, nextTurn_of_sameSurroundings h, hport, hwait]

theorem dropTurn_sameSurroundings : sameSurroundings s.dropTurn s'.dropTurn := by
  obtain ⟨hcfg, hport, hwait, hturns, hround⟩ := h
  cases hts : s.turns <;>
    simp [sameSurroundings, State.dropTurn, State.agenda, hcfg, hport, hwait, hturns, hround, hts]

/-- What a turn takes from the order and from the words is read from the surroundings alone. -/
theorem advance_sameSurroundings : sameSurroundings s.advance s'.advance := by
  obtain ⟨-, hport, hwait, -, -⟩ := id h
  obtain ⟨hcfg', hport', hwait', hturns', hround'⟩ := dropTurn_sameSurroundings h
  rw [State.advance, State.advance, nextTurn_of_sameSurroundings h, hport, hwait]
  cases s.nextTurn
  case host => exact ⟨hcfg', rfl, hwait', hturns', hround'⟩
  all_goals exact ⟨hcfg', hport', hwait', hturns', hround'⟩

end

section
variable {s t : State} {a : Action}

/-- Only a reading begins or ends the host's wait (70_reset_and_hazards.md R214). -/
theorem StepRow.waiting (r : StepRow s a t) :
    t.waiting = if a = .takeResponse then s.resp.isEmpty else s.waiting := by
  cases r <;> simp

/-- No action writes what the turn has left of the order and of the words. -/
theorem StepRow.schedule (r : StepRow s a t) :
    t.port = s.advance.port ∧ t.turns = s.advance.turns ∧ t.round = s.advance.round := by
  cases r <;> simp

end

section
variable {s s' : State} {n : ChanId}

/-- Both steps are rows of the one action, and no row reads more than the two states agree on. -/
theorem State.AgreesOn.stepped (h : s.AgreesOn n s') : s.stepped.AgreesOn n s'.stepped := by
  have r := stepRow_stepped s
  have r' := stepRow_stepped s'
  rw [nextAction_of_sameSurroundings h.outside] at r'
  obtain ⟨-, hport, -, hturns, hround⟩ := advance_sameSurroundings h.outside
  obtain ⟨⟨hcfg, -, hwait, -, -⟩, hpower, hresp, hchan, hlvl⟩ := h
  have hempty : s'.resp.isEmpty = s.resp.isEmpty := by
    rw [Bool.eq_iff_iff, List.isEmpty_iff_length_eq_zero, List.isEmpty_iff_length_eq_zero, hresp]
  obtain ⟨hport₁, hturns₁, hround₁⟩ := r.schedule
  obtain ⟨hport₂, hturns₂, hround₂⟩ := r'.schedule
  refine ⟨⟨?_, ?_, ?_, ?_, ?_⟩, ?_, ?_, Channel.eq_of_fields ?_ ?_ ?_ ?_, ?_⟩
  · rw [r.cfg, r'.cfg, hcfg]
  · rw [hport₁, hport₂, hport]
  · rw [r.waiting, r'.waiting, hwait, hempty]
  · rw [hturns₁, hturns₂, hturns]
  · rw [hround₁, hround₂, hround]
  · rw [r.power, r'.power, hpower]
  · rw [r.resp, r'.resp]
    split <;> simp [hresp]
  · rw [r.chEn, r'.chEn, hchan, hcfg]
  · rw [r.period, r'.period, hchan, hcfg]
  · rw [r.cnt, r'.cnt, hchan, hcfg, hpower]
  · rw [r.pend, r'.pend, hchan, hcfg, hpower]
  · rw [r.lvl, r'.lvl, hchan, hlvl]

theorem State.AgreesOn.after (h : s.AgreesOn n s') (k : Nat) : (s.after k).AgreesOn n (s'.after k) := by
  induction k with
  | zero => exact h
  | succ k ih => exact ih.stepped

end

/-- Settles O48, by induction on the number of steps: what two states agree on, their next states agree on. -/
theorem channelIndependence : Obligations.ChannelIndependence := by
  intro s s' n k hcfg hpower hport hturns hround hwait hresp hchan hlvl
  have h : s.AgreesOn n s' := ⟨⟨hcfg, hport, hwait, hturns, hround⟩, hpower, hresp, hchan, hlvl⟩
  exact ⟨(h.after k).chan, (h.after k).lvl⟩

end Sys2Proof.Machine

/-! SUPPORT. The proofs for the statements of 60_exceptions.md. The order of turns is read through `State.agenda`, whose
entries are the turns of the steps to come; errors are read through the cases of `PLAY_NOTE`, the one command that raises
any; a run is an induction on the number of steps, each step one row of `StepRow`. -/

namespace Sys2Proof.Machine

/-! ### The step on a listed turn -/

/-- A turn that is listed is given to its agent (60_exceptions.md R195). -/
theorem step_of_turns {s : State} {t : Turn} {ts : List Turn} : s.turns = t :: ts →
    step s = match t with
      | .host =>
        if s.waiting then .next (takeResponse { s with turns := ts })
        else perform (hostAction s.port) { s with turns := ts, port := s.port.tail }
      | .hostTake => .next (takeResponse { s with turns := ts })
      | .timerClock => .next (tmrTick { s with turns := ts })
      | .pwmClock => .next (pwmTick { s with turns := ts })
      | .service n => .next (chService n { s with turns := ts })
      | .reset => .next (resetEvent { s with turns := ts }) := by
  intro h
  rw [step, State.nextAction_of_turns h, State.advance_of_turns h]
  cases t with
  | host => cases s.waiting <;> rfl
  | _ => rfl

theorem step_of_host_turn {s : State} {ts : List Turn} (h : s.turns = .host :: ts) (hwait : s.waiting = false) :
    step s = perform (hostAction s.port) { s with turns := ts, port := s.port.tail } := by
  simp [step_of_turns h, hwait]

theorem step_of_command_word {s : State} {ts : List Turn} {w : Word} {ws : List Word} {i : Instr}
    (hturns : s.turns = .host :: ts) (hwait : s.waiting = false) (hport : s.port = w :: ws)
    (hw : decode w = .command i) : step s = exec i { s with turns := ts, port := ws } := by
  have haction : hostAction s.port = .command i := by simp [hport, hostAction, hw]
  rw [step_of_host_turn hturns hwait, haction, hport]
  rfl

/-- A whole word is issued as it is (20_memory.md R75; log 17). -/
theorem State.withFetchWord_whole (s : State) (w : Word) : s.withFetchWord 16 w.toNat = s.issueNext w := by
  rw [State.withFetchWord, Nat.mod_eq_of_lt w.isLt, BitVec.ofNat_toNat, BitVec.setWidth_eq]

/-- Settles O9: the host's turn performs what the word at the head of the port decodes to, and an issued word stands
there. -/
theorem stepRunsDecodedCommand : Obligations.StepRunsDecodedCommand := by
  refine ⟨fun s ts w ws i => step_of_command_word, fun s w i hw => ?_⟩
  rw [s.withFetchWord_whole w]
  exact step_of_command_word rfl rfl rfl hw

/-- Settles O10, one agent after the other. -/
theorem stepRunsTheAgent : Obligations.StepRunsTheAgent := by
  intro s ts
  refine ⟨fun h => step_of_turns h, fun h => step_of_turns h, fun n h => step_of_turns h, fun h => step_of_turns h,
    fun h => step_of_turns h, fun h hwait hport => ?_, fun h hwait => ?_⟩
  · have hidle : hostAction s.port = .idle := by rw [hport]; rfl
    have htail : s.port.tail = s.port := by rw [hport]; rfl
    rw [step_of_host_turn h hwait, hidle, htail]
    rfl
  · rw [step_of_turns h, hwait]
    rfl

/-- Settles O11: each action answers a next state. -/
theorem everyStepCompletes : Obligations.EveryStepCompletes := exists_step_eq_next

/-! ### The order of turns -/

theorem State.agenda_of_turns_nil {s : State} (h : s.turns = []) : s.agenda = freeRound s.round := by
  rw [State.agenda, h]

theorem State.agenda_of_turns_ne_nil {s : State} (h : s.turns ≠ []) : s.agenda = s.turns := by
  unfold State.agenda
  split
  · next hnil => exact absurd hnil h
  · next hts => exact hts.symm

theorem State.dropTurn_turns (s : State) : s.dropTurn.turns = s.agenda.tail := by
  obtain ⟨hnil, hdrop⟩ | ⟨t, ts, hts, hdrop⟩ := s.dropTurn_cases
  · rw [hdrop, State.agenda_of_turns_nil hnil]
  · rw [hdrop, State.agenda_of_turns_ne_nil (by simp [hts]), hts, List.tail_cons]

/-- A step uses up one turn of the agenda, whatever it does. -/
theorem State.stepped_turns (s : State) : s.stepped.turns = s.agenda.tail := by
  obtain ⟨-, hturns, -⟩ := (stepRow_stepped s).schedule
  rw [hturns, ← s.dropTurn_turns, State.advance]
  cases s.nextTurn <;> rfl

/-- The agenda lists the turns of the steps to come. -/
theorem State.nextTurn_after {s : State} {j : Nat} {t : Turn} (h : s.agenda[j]? = some t) :
    (s.after j).nextTurn = t := by
  induction j generalizing s with
  | zero => simp [State.nextTurn, List.headD_eq_head?_getD, List.head?_eq_getElem?, h]
  | succ j ih =>
    have htail : s.stepped.turns[j]? = some t := by
      rw [State.stepped_turns, List.getElem?_tail, h]
    have hne : s.stepped.turns ≠ [] := List.ne_nil_of_mem (List.mem_of_getElem? htail)
    rw [State.after_succ_left]
    exact ih ((State.agenda_of_turns_ne_nil hne).symm ▸ htail)

/-- The listed turns come to their end, and the free order goes on. -/
theorem State.exists_after_turns_nil (s : State) : ∃ j, (s.after j).turns = [] := by
  induction hts : s.turns generalizing s with
  | nil => exact ⟨0, hts⟩
  | cons t ts ih =>
    have hstep : s.stepped.turns = ts := by
      rw [State.stepped_turns, State.agenda_of_turns_ne_nil (by simp [hts]), hts, List.tail_cons]
    obtain ⟨j, hj⟩ := ih s.stepped hstep
    exact ⟨j + 1, by rw [State.after_succ_left, hj]⟩

/-- A turn that stands in every stretch of the free order comes again and again (60_exceptions.md R178; log 15). -/
theorem State.exists_nextTurn_of_mem_freeRound (s : State) {t : Turn} (ht : ∀ r, t ∈ freeRound r) (k : Nat) :
    ∃ j, k ≤ j ∧ (s.after j).nextTurn = t := by
  obtain ⟨i, hi⟩ := (s.after k).exists_after_turns_nil
  have hmem := ht ((s.after k).after i).round
  rw [← State.agenda_of_turns_nil hi] at hmem
  obtain ⟨m, hm⟩ := List.mem_iff_getElem?.mp hmem
  refine ⟨k + i + m, by omega, ?_⟩
  rw [State.after_add, State.after_add]
  exact State.nextTurn_after hm

theorem timerClock_mem_freeRound (r : Nat) : .timerClock ∈ freeRound r := by
  simp [freeRound]

theorem pwmClock_mem_freeRound (r : Nat) : .pwmClock ∈ freeRound r := by
  simp [freeRound]

theorem service_mem_freeRound (n : ChanId) (r : Nat) : .service n ∈ freeRound r := by
  cases n <;> simp [freeRound]

/-- Settles O12: each stretch of the free order holds the three turns, and the next stretch is reached from every state. -/
theorem scheduleIsFair : Obligations.ScheduleIsFair := by
  refine fun s k => ⟨fun n => ?_, ?_, ?_⟩
  · exact (s.exists_nextTurn_of_mem_freeRound (service_mem_freeRound n) k).imp fun _ ⟨hkj, hturn⟩ =>
      ⟨hkj, by rw [State.nextAction, hturn]⟩
  · exact (s.exists_nextTurn_of_mem_freeRound timerClock_mem_freeRound k).imp fun _ ⟨hkj, hturn⟩ =>
      ⟨hkj, by rw [State.nextAction, hturn]⟩
  · exact (s.exists_nextTurn_of_mem_freeRound pwmClock_mem_freeRound k).imp fun _ ⟨hkj, hturn⟩ =>
      ⟨hkj, by rw [State.nextAction, hturn]⟩

/-! ### A match that waits for its service -/

/-- The engine after reset, but running, with channel n sounding, its match pending, and the next k turns all the timer
clock's. -/
def State.pendingTicks (n : ChanId) (k : Nat) : State :=
  { State.reset.setChan n ⟨true, 1, 0, true⟩ with power := true, turns := List.replicate k .timerClock }

theorem State.pendingTicks_chan (n m : ChanId) (k : Nat) :
    (State.pendingTicks n k).chan m = if m = n then ⟨true, 1, 0, true⟩ else State.reset.chan m := by
  cases n <;> cases m <;> rfl

theorem State.pendingTicks_mix (n : ChanId) (k : Nat) : (State.pendingTicks n k).mix = State.reset.mix :=
  State.setChan_mix ..

theorem State.pendingTicks_inv (n : ChanId) (k : Nat) : (State.pendingTicks n k).Inv := by
  have hreset : State.reset.Inv := State.resetUnder_inv Config.hw_wf
  have hcfg : (State.pendingTicks n k).cfg = State.reset.cfg := State.setChan_cfg ..
  have hduty : (State.pendingTicks n k).duty = State.reset.duty := State.setChan_duty ..
  have hpower : (State.pendingTicks n k).power = true := rfl
  refine ⟨hcfg ▸ hreset.cfgWf, fun m => ?_, ?_, fun hstopped => absurd (hpower.symm.trans hstopped) (by decide)⟩
  · have hc := State.pendingTicks_chan n m k
    by_cases h : m = n
    · rw [if_pos h] at hc
      exact ⟨by simp [hc], by simp [hc], by simp [hc, hpower]⟩
    · rw [if_neg h] at hc
      exact (hreset.chans m).of_kept hc (by rw [State.lvl, State.pendingTicks_mix, State.lvl]) fun _ => hpower
  · rw [hcfg, State.pendingTicks_mix, hduty, hreset.dutyTracks]

theorem State.nextAction_of_timerClocks {s : State} {j k : Nat} (h : s.turns = List.replicate k .timerClock) (hj : j < k) :
    (s.after j).nextAction = .tmrTick := by
  have hne : s.turns ≠ [] := by
    rw [h, Ne, List.replicate_eq_nil_iff]
    omega
  have hturn : (s.after j).nextTurn = .timerClock :=
    State.nextTurn_after (by rw [State.agenda_of_turns_ne_nil hne, h, List.getElem?_replicate_of_lt hj])
  rw [State.nextAction, hturn]

section
variable {s : State} {k : Nat} (h : ∀ j, j < k → (s.after j).nextAction = .tmrTick)
include h

theorem State.tickCount_of_ticks : s.tickCount k = k := by
  have hall : s.tickCount k = (List.range k).length :=
    List.countP_eq_length.mpr fun j hj => by simp [h j (List.mem_range.mp hj)]
  rw [hall, List.length_range]

theorem State.serviceCount_of_ticks (n : ChanId) : s.serviceCount n k = 0 :=
  List.countP_eq_zero.mpr fun j hj => by simp [h j (List.mem_range.mp hj)]

/-- Ticks alone leave a pending match pending (41_oscillators.md R144). -/
theorem State.pend_after_ticks {n : ChanId} (hpend : (s.chan n).pend = true) : ((s.after k).chan n).pend = true := by
  induction k with
  | zero => exact hpend
  | succ k ih =>
    have htick := h k k.lt_succ_self
    have hlast := ih fun j hj => h j (hj.trans k.lt_succ_self)
    rw [State.after_succ, (stepRow_stepped _).pend, htick]
    simp [Action.silencesAll, Action.silences, Action.noteStarted, hlast]

end

/-- Settles O13: nothing keeps the timer clock from the next k turns. -/
theorem serviceLatencyUnbounded : Obligations.ServiceLatencyUnbounded := by
  intro n k
  have hpend : ((State.pendingTicks n k).chan n).pend = true := by simp [State.pendingTicks_chan]
  have hticks : ∀ j, j < k → ((State.pendingTicks n k).after j).nextAction = .tmrTick :=
    fun j => State.nextAction_of_timerClocks rfl
  exact ⟨State.pendingTicks n k, State.pendingTicks_inv n k, hpend, State.tickCount_of_ticks hticks,
    State.pend_after_ticks hticks hpend, State.serviceCount_of_ticks hticks n⟩

/-! ### The errors of a command -/

theorem exec_playNote_badCh (note : BitVec 8) (s : State) : exec (.playNote 3 note) s = .next (s.setErr .badCh) := rfl

theorem exec_playNote_badNote {ch : BitVec 2} {note : BitVec 8} {s : State} (hch : ch ≠ 3) (hnote : note ≠ noteNone)
    (hle : s.cfg.noteCount ≤ note.toNat) : exec (.playNote ch note) s = .next (s.setErr .badNote) := by
  obtain ⟨hthree, -⟩ | ⟨n, -, ⟨hnone, -⟩ | ⟨-, hlt, -⟩ | ⟨-, -, hplay⟩⟩ := playNote_cases ch note s
  · exact absurd hthree hch
  · exact absurd hnone hnote
  · exact absurd hlt (Nat.not_lt.mpr hle)
  · exact congrArg Host.Outcome.next hplay

/-- Settles O28: the two errors, each shown in its `STATUS` bit. -/
theorem playNoteErrors : Obligations.PlayNoteErrors := by
  refine ⟨fun note s => ⟨s.setErr .badCh, exec_playNote_badCh note s, rfl, ?_⟩,
    fun ch note s hch hle hnote => ⟨s.setErr .badNote, exec_playNote_badNote hch hnote hle, rfl, ?_⟩,
    exec_playNote_badCh 0x80⟩
  · exact ((s.setErr .badCh).statusWord_errBit .badCh).trans (s.setErr_errBit_same .badCh)
  · exact ((s.setErr .badNote).statusWord_errBit .badNote).trans (s.setErr_errBit_same .badNote)

theorem honoursContract_playNote (c : Config) (ch : BitVec 2) (note : BitVec 8) :
    (Instr.playNote ch note).honoursContract c = true ↔ ch ≠ 3 ∧ (note = noteNone ∨ note.toNat < c.noteCount) := by
  simp [Instr.honoursContract]

/-- Everything that a command can make of `ERR`: it keeps it, or it raises one error and does nothing else
(30_encoding.md R96, 60_exceptions.md R196). -/
theorem exec_err_cases {i : Instr} {s t : State} (h : exec i s = .next t) :
    (i.honoursContract s.cfg = true ∧ t.err = s.err) ∨
    (i.honoursContract s.cfg = false ∧ (t = s.setErr .badCh ∨ t = s.setErr .badNote)) := by
  obtain ⟨rfl, rfl⟩ | ⟨rfl, rfl⟩ | ⟨ch, note, rfl, rfl⟩ | ⟨v, rfl, rfl⟩ | ⟨rfl, rfl⟩ | ⟨rfl, rfl⟩ := exec_cases h
  · exact .inl ⟨rfl, rfl⟩
  · exact .inl ⟨rfl, rfl⟩
  · rw [← Bool.not_eq_true, honoursContract_playNote]
    obtain ⟨rfl, hplay⟩ | ⟨n, rfl, ⟨rfl, hplay⟩ | ⟨-, hlt, hplay⟩ | ⟨hnote, hle, hplay⟩⟩ := playNote_cases ch note s
    · exact .inr ⟨by simp, .inl hplay⟩
    · exact .inl ⟨by simp, by simp [hplay]⟩
    · exact .inl ⟨by simp [hlt], by simp [hplay]⟩
    · exact .inr ⟨by simp [hnote, hle], .inr hplay⟩
  · exact .inl ⟨rfl, rfl⟩
  · exact .inl ⟨rfl, rfl⟩
  · exact .inl ⟨rfl, rfl⟩

/-- Settles O36, by the two cases of a command's error. -/
theorem contractDecidesErrors : Obligations.ContractDecidesErrors := by
  intro i s t h
  obtain ⟨hkeeps, herr⟩ | ⟨hbreaks, hraise⟩ := exec_err_cases h
  · exact ⟨fun _ => herr, fun hbreaks => absurd (hkeeps.symm.trans hbreaks) (by decide)⟩
  · exact ⟨fun hkeeps => absurd (hkeeps.symm.trans hbreaks) (by decide), fun _ => hraise⟩

/-- Settles O35: what changes `ERR` is the raising of one error, and that writes nothing else. -/
theorem errorDiscardsOtherWrites : Obligations.ErrorDiscardsOtherWrites := by
  intro s t h hchanged
  have hraise : ∃ k : ErrKind, k ≠ .ovr ∧ t = s.setErr k := by
    obtain ⟨i, h⟩ | h := h
    · obtain ⟨-, herr⟩ | ⟨-, hbad | hbad⟩ := exec_err_cases h
      · exact absurd herr hchanged
      · exact ⟨.badCh, by decide, hbad⟩
      · exact ⟨.badNote, by decide, hbad⟩
    · cases h
      exact ⟨.ill, by decide, rfl⟩
  obtain ⟨k, hk, rfl⟩ := hraise
  exact ⟨rfl, k, hk, rfl⟩

/-! ### Power, silence and errors over runs -/

theorem State.power_after_eq_false {s : State} {k : Nat} (hpower : s.power = false)
    (h : ∀ j, j < k → (s.after j).nextAction ≠ .command (.enableOutput 1)) : (s.after k).power = false := by
  induction k with
  | zero => exact hpower
  | succ k ih =>
    have hlast := ih fun j hj => h j (hj.trans k.lt_succ_self)
    rw [State.after_succ, (stepRow_stepped _).power, if_neg (h k k.lt_succ_self), hlast, ite_self]

/-- Settles O50: of all steps only that command sets `POWER`, and a stopped engine's pin is low. -/
theorem onlyEnableOutputWakes : Obligations.OnlyEnableOutputWakes := fun _ _ hpower h =>
  ⟨State.power_after_eq_false hpower h, State.pwmOut_of_stopped (State.power_after_eq_false hpower h)⟩

theorem State.chEn_after_eq_false {s : State} {n : ChanId} {k : Nat} (hen : (s.chan n).chEn = false)
    (h : ∀ j, j < k → (s.after j).nextAction.noteStarted s.cfg n = none) : ((s.after k).chan n).chEn = false := by
  induction k with
  | zero => exact hen
  | succ k ih =>
    have hnone := h k k.lt_succ_self
    have hlast := ih fun j hj => h j (hj.trans k.lt_succ_self)
    rw [State.after_succ, (stepRow_stepped _).chEn, configurationNeverChanges, hnone, hlast]
    simp

/-- Settles O51: only the start of a note enables a channel, and by the invariants a silent channel's level is low. -/
theorem silentUntilNote : Obligations.SilentUntilNote := by
  intro s k hinv hsilent h n
  have hen := State.chEn_after_eq_false (hsilent n) fun j hj => h j hj n
  obtain ⟨hlvl, -, -⟩ := ((s.after_inv hinv k).chans n).silent hen
  exact ⟨hen, hlvl⟩

/-- Settles O53: a step that is no reset keeps every error bit. -/
theorem errorBitsSticky : Obligations.ErrorBitsSticky := by
  intro s e k hset h
  induction k with
  | zero => exact hset
  | succ k ih =>
    have hlast := ih fun j hj => h j (hj.trans k.lt_succ_self)
    exact ((stepRow_stepped _).errBit e).mpr ⟨h k k.lt_succ_self, .inl hlast⟩

end Sys2Proof.Machine

/-! SUPPORT. The proofs for the statements of 70_reset_and_hazards.md. Two turns in either order are one state when what the
host's turn performs commutes with the service; the host's wait is read through the rows of a step, of which only a reading
writes it and only a query appends a response. -/

namespace Sys2Proof.Machine

/-! ### A service and another operation in either order -/

/-- An operation that commutes with the body of a service and leaves the pending match alone commutes with the service,
whether it takes place or passes. -/
theorem chService_comm_of_body {f : State → State} {n : ChanId} {s : State}
    (hpend : ((f s).chan n).pend = (s.chan n).pend) (hbody : f (serviceBody n s) = serviceBody n (f s)) :
    f (chService n s) = chService n (f s) := by
  cases h : (s.chan n).pend
  · rw [chService_of_not_pend h, chService_of_not_pend (hpend.trans h)]
  · rw [chService_of_pend h, chService_of_pend (hpend.trans h), hbody]

theorem takeResponse_chService_comm (n : ChanId) (s : State) :
    takeResponse (chService n s) = chService n (takeResponse s) := by
  refine chService_comm_of_body (by rw [takeResponse_chan]) ?_
  cases n <;> rfl

/-- A volume write keeps the levels and a service keeps the volume (20_memory.md R81). -/
theorem setVol_chService_comm (v : BitVec 2) (n : ChanId) (s : State) :
    (chService n s).setVol v = chService n (s.setVol v) := by
  refine chService_comm_of_body (f := (State.setVol · v)) (by simp) ?_
  exact State.eq_of_fields (by simp) (by simp) (by simp) (by simp) (fun k => by simp [serviceBody_chan]) (by simp) (by simp)
    (by simp [sameSurroundings])

theorem lvlClear_lvlToggle_comm {n m : ChanId} (h : m ≠ n) (l : BitVec 3) :
    lvlClear m (lvlToggle n l) = lvlToggle n (lvlClear m l) := by
  refine lvl_ext fun k => ?_
  rw [lvlClear_bit, lvlToggle_bit, lvlToggle_bit, lvlClear_bit]
  obtain rfl | hk := eq_or_ne k m
  · simp [h]
  · simp [hk]

/-- The silence of one channel and the service of another write different level bits and different registers. -/
theorem silenceChan_chService_comm {n m : ChanId} (h : m ≠ n) (s : State) :
    silenceChan m (chService n s) = chService n (silenceChan m s) := by
  refine chService_comm_of_body (by simp [silenceChan_chan, h.symm]) ?_
  refine State.eq_of_fields (by simp) (by simp [lvlClear_lvlToggle_comm h]) (by simp [lvlClear_lvlToggle_comm h]) (by simp)
    (fun k => ?_) (by simp) (by simp) (by simp [sameSurroundings])
  obtain rfl | hk := eq_or_ne k m
  · simp [silenceChan_chan, serviceBody_chan, h]
  · simp [silenceChan_chan, serviceBody_chan, hk]

/-! ### The host's turn and a service in either order -/

/-- The state with other words to issue and other turns to come. -/
def State.withOutside (s : State) (ws : List Word) (ts : List Turn) : State := { s with port := ws, turns := ts }

theorem chService_waiting (n : ChanId) (s : State) : (chService n s).waiting = s.waiting := by
  obtain ⟨-, h⟩ | ⟨-, h⟩ := chService_cases n s <;> simp [h]

theorem chService_withOutside (n : ChanId) (s : State) (ws : List Word) (ts : List Turn) :
    chService n (s.withOutside ws ts) = (chService n s).withOutside ws ts := by
  symm
  refine chService_comm_of_body (f := (State.withOutside · ws ts)) ?_ ?_ <;> cases n <;> rfl

theorem silenceChan_withOutside (m : ChanId) (s : State) (ws : List Word) (ts : List Turn) :
    silenceChan m (s.withOutside ws ts) = (silenceChan m s).withOutside ws ts := by
  cases m <;> rfl

theorem State.stepped_of_service_turn (s : State) (n : ChanId) (ws : List Word) (ts : List Turn) :
    (s.withOutside ws (.service n :: ts)).stepped = (chService n s).withOutside ws ts := by
  rw [State.stepped_of_service rfl, chService_withOutside]
  rfl

/-- A host that waits reads (log 18). -/
theorem State.stepped_of_waiting_host {s : State} (hwait : s.waiting = true) (ws : List Word) (ts : List Turn) :
    (s.withOutside ws (.host :: ts)).stepped = (takeResponse s).withOutside ws ts := by
  refine State.stepped_of_step ?_
  rw [step_of_turns rfl]
  exact if_pos hwait

/-- A host that does not wait performs its next command word. -/
theorem State.stepped_of_command_word {s t : State} {w : Word} {ws : List Word} {ts : List Turn} {i : Instr}
    (hwait : s.waiting = false) (hw : decode w = .command i) (ht : exec i (s.withOutside ws ts) = .next t) :
    (s.withOutside (w :: ws) (.host :: ts)).stepped = t := by
  refine State.stepped_of_step ?_
  rw [step_of_command_word (s := s.withOutside (w :: ws) (.host :: ts)) rfl hwait rfl hw]
  exact ht

/-- What the host's turn performs, `f`, depends on its words and its wait, which a service leaves as they are; so when `f`
commutes with the service, the two turns do. -/
theorem State.after_two_turns_comm {s : State} {n : ChanId} {ts : List Turn} {ws : List Word} {f : State → State}
    (hturn : ∀ u ts', u.waiting = s.waiting → (u.withOutside s.port (.host :: ts')).stepped = (f u).withOutside ws ts')
    (hcomm : f (chService n s) = chService n (f s)) :
    ({ s with turns := .host :: .service n :: ts } : State).after 2 =
    ({ s with turns := .service n :: .host :: ts } : State).after 2 := by
  calc (s.withOutside s.port (.host :: .service n :: ts)).stepped.stepped
      = (chService n (f s)).withOutside ws ts := by rw [hturn s _ rfl, State.stepped_of_service_turn]
    _ = (f (chService n s)).withOutside ws ts := by rw [hcomm]
    _ = (s.withOutside s.port (.service n :: .host :: ts)).stepped.stepped := by
        rw [State.stepped_of_service_turn, hturn _ _ (chService_waiting n s)]

/-- Settles O45: a reading, a volume write and the silence of another channel each commute with the service. -/
theorem noUpdateLost : Obligations.NoUpdateLost := by
  intro s n ts w ws hport hcommand
  obtain hwait | hwait := Bool.eq_false_or_eq_true s.waiting
  · exact State.after_two_turns_comm (fun u ts' hu => State.stepped_of_waiting_host (hu.trans hwait) s.port ts')
      (takeResponse_chService_comm n s)
  · obtain ⟨v, hw⟩ | ⟨m, hm, hw⟩ := hcommand
    · refine State.after_two_turns_comm (ws := ws) (f := (State.setVol · v)) (fun u ts' hu => ?_)
        (setVol_chService_comm v n s)
      rw [hport]
      exact State.stepped_of_command_word (hu.trans hwait) hw rfl
    · refine State.after_two_turns_comm (ws := ws) (fun u ts' hu => ?_) (silenceChan_chService_comm hm s)
      rw [hport, ← silenceChan_withOutside]
      exact State.stepped_of_command_word (hu.trans hwait) hw (exec_playNote_noteNone m _)

/-! ### The waiting host -/

/-- Of all steps only a query leaves a word in an empty `RESP` (40_commands.md R119). -/
theorem State.stepped_resp_eq_nil {s : State} (h : s.resp = []) (hvol : s.nextAction ≠ .command .getVolume)
    (hstatus : s.nextAction ≠ .command .getStatus) : s.stepped.resp = [] := by
  rw [(stepRow_stepped s).resp, h]
  split
  · next ha => exact absurd ha hvol
  · next ha => exact absurd ha hstatus
  all_goals rfl

theorem State.resp_after_eq_nil {s : State} {k : Nat} (h : s.resp = []) (hquiet : ∀ j, j < k →
    (s.after j).nextAction ≠ .command .getVolume ∧ (s.after j).nextAction ≠ .command .getStatus) :
    (s.after k).resp = [] := by
  induction k with
  | zero => exact h
  | succ k ih =>
    obtain ⟨hvol, hstatus⟩ := hquiet k k.lt_succ_self
    exact State.stepped_resp_eq_nil (ih fun j hj => hquiet j (hj.trans k.lt_succ_self)) hvol hstatus

/-- A host that waits issues no word (log 18). -/
theorem State.nextAction_of_waiting {s : State} (h : s.waiting = true) :
    s.nextAction ≠ .illegal ∧ ∀ i, s.nextAction ≠ .command i := by
  unfold State.nextAction
  cases s.nextTurn <;> simp [h]

theorem State.advance_port_of_waiting {s : State} (h : s.waiting = true) : s.advance.port = s.port := by
  unfold State.advance
  obtain ⟨-, hdrop⟩ | ⟨_, _, -, hdrop⟩ := s.dropTurn_cases <;> cases s.nextTurn <;> simp [hdrop, h]

/-- A reading of an empty `RESP` begins the wait. -/
theorem State.stepped_hangs_of_reading {s : State} (h : s.resp = []) (ha : s.nextAction = .takeResponse) :
    s.stepped.hostHangs := by
  have r := stepRow_stepped s
  refine ⟨?_, State.stepped_resp_eq_nil h (by simp [ha]) (by simp [ha])⟩
  rw [r.waiting, if_pos ha, h, List.isEmpty_nil]

/-- Another reading finds `RESP` as empty as before, and no command is performed that would append a response. -/
theorem State.stepped_hangs {s : State} (h : s.hostHangs) : s.stepped.hostHangs := by
  obtain ⟨hwait, hresp⟩ := h
  obtain ⟨-, hcommand⟩ := State.nextAction_of_waiting hwait
  refine ⟨?_, State.stepped_resp_eq_nil hresp (hcommand _) (hcommand _)⟩
  rw [(stepRow_stepped s).waiting, hresp, hwait, List.isEmpty_nil, ite_self]

theorem State.stepped_port_of_waiting {s : State} (h : s.waiting = true) : s.stepped.port = s.port := by
  obtain ⟨hport, -, -⟩ := (stepRow_stepped s).schedule
  rw [hport, State.advance_port_of_waiting h]

theorem State.after_hangs {s : State} (h : s.hostHangs) (k : Nat) : (s.after k).hostHangs ∧ (s.after k).port = s.port := by
  induction k with
  | zero => exact ⟨h, rfl⟩
  | succ k ih =>
    obtain ⟨hhangs, hport⟩ := ih
    obtain ⟨hwait, -⟩ := id hhangs
    exact ⟨State.stepped_hangs hhangs, (State.stepped_port_of_waiting hwait).trans hport⟩

/-- Settles O59: each row of a step says what it makes of the wait, and a hang is kept by every step. -/
theorem waitIsForEver : Obligations.WaitIsForEver := by
  refine ⟨fun s t h => (stepRow_of_step h).waiting, fun s k h => ?_⟩
  obtain ⟨hhangs, hport⟩ := State.after_hangs h k
  obtain ⟨hwait, -⟩ := id hhangs
  exact ⟨hhangs, hport, State.nextAction_of_waiting hwait⟩

/-- Settles O52: without a query `RESP` stays empty, so the reading begins a hang, which no later step ends. -/
theorem waitingForNoResponse : Obligations.WaitingForNoResponse := by
  intro s k hresp hquiet
  have hempty := State.resp_after_eq_nil hresp hquiet
  refine ⟨hempty, fun hturn j hj => ?_⟩
  have hreads : (s.after k).nextAction = .takeResponse := by rw [State.nextAction, hturn]
  obtain ⟨d, rfl⟩ : ∃ d, j = k + 1 + d := ⟨j - (k + 1), by omega⟩
  rw [State.after_add]
  obtain ⟨hhangs, -⟩ := State.after_hangs (State.stepped_hangs_of_reading hempty hreads) d
  exact hhangs

/-! ### Reset -/

theorem step_of_reset {s : State} (h : s.nextAction = .reset) : step s = .next (resetEvent s.advance) := by
  rw [step, h]
  rfl

/-- `State.reset` has the registers that a reset of it gives. -/
theorem resetEvent_reset : resetEvent State.reset = State.reset := rfl

/-- Settles O55: by what `resetEvent` makes of each field. -/
theorem resetState : Obligations.ResetState := by
  refine ⟨fun s h => ⟨_, step_of_reset h, resetEvent_power _, resetEvent_mix _, ?_, resetEvent_pwmCnt _,
    resetEvent_chan _, resetEvent_err _, resetEvent_resp _, ?_⟩, ?_⟩
  · rw [resetEvent_duty, State.advance_cfg]
    rfl
  · rw [resetEvent_cfg, State.advance_cfg]
  · rw [← resetEvent_reset]
    exact ⟨resetEvent_power _, resetEvent_mix _, resetEvent_duty _, resetEvent_pwmCnt _, resetEvent_chan _,
      resetEvent_err _, resetEvent_resp _⟩

/-! ### A pulse that starts again -/

/-- A configuration whose duty value is 10 at volume 0 and 100 at every other volume. -/
def glitchConfig : Config :=
  { Config.ex with dutyTable := List.replicate 8 10 ++ List.replicate 24 100 }

/-- The engine runs at volume 0, in mid-carrier-period and past the end of its pulse, and the host is about to raise the
volume. -/
def glitchState : State :=
  { State.resetUnder glitchConfig with
    power := true, pwmCnt := 50, port := [encode (.setVolume 1)], turns := [.host] }

theorem glitchState_inv : glitchState.Inv where
  cfgWf := by decide
  chans n := by cases n <;> exact ⟨by decide, by decide, by decide⟩
  dutyTracks := by decide
  stoppedCarrier := by decide

theorem step_glitchState :
    step glitchState = .next (State.setVol { glitchState with port := [], turns := [] } 1) :=
  step_of_command_word rfl rfl rfl (decodeOfEncode (.setVolume 1))

/-- Settles O54: the volume write of `glitchState` takes effect at once. -/
theorem pinGlitch : Obligations.PinGlitch := by
  refine ⟨glitchState, _, glitchState_inv, by decide, by decide, by decide, step_glitchState, by decide, by decide,
    by decide, fun c _ hc => ?_⟩
  exact (State.pwmOut_iff _).mpr ⟨rfl, BitVec.lt_def.mp hc⟩

end Sys2Proof.Machine
